-- ==== Sys2Proof/Word.lean ====
section
/-!
DEFINITION. Sys2Proof/Word.lean: the word types of QRC and nothing else. The host bus and every control
register are 32 bits wide, buffers hold bytes, host addresses are 20 bits (00_scope.md R6, R11;
20_memory.md R60, R64).
-/

namespace Sys2Proof

/-- A bus word, a control register, a command word: 32 bits (00_scope.md R6). -/
abbrev Word := BitVec 32

/-- A buffer byte, a codeword, an element of GF(256): 8 bits (40_gf_rs.md R130). -/
abbrev Byte := BitVec 8

/-- A host byte address, an offset in QRC's 1 MiB window: 20 bits (20_memory.md R60). -/
abbrev HostAddr := BitVec 20

end Sys2Proof
end

