-- ==== Sys2Proof/Config.lean ====
section
/-!
DEFINITION. Sys2Proof/Config.lean: the values of the numeric named parameters of the hardware (00_scope.md R6, R7;
92_eei_decisions.md section 8) and the values the spec leaves open, which have no body: nothing can be
proved about what they are. Machine/Tables.lean adds `structRom` and gathers all parameters in
`Config.params`, from which the machine reads them.
-/

namespace Sys2Proof.Config

/-- `GF_POLY`, the field polynomial x^8 + x^4 + x^3 + x^2 + 1 (R6, 40_gf_rs.md R130). EXP, LOG, GEN and the
field product are computed from it (Machine/Params.lean). -/
def gfPoly : Nat := 0x11D

/-- `PAD_PAIR`, the two pad codewords of both symbol types (R6, 41_packer.md R175). -/
def padPair : Byte × Byte := (0xEC#8, 0x11#8)

/-- `GEN_MAX`, the highest generator degree held (R6, 40_gf_rs.md R134). -/
def genMax : Nat := 30

/-- What the buffer byte at a host address holds after the n-th hardware reset until it is written
(70_reset_and_hazards.md R342: arbitrary, fixed until written; log 4). First argument: the reset's number;
second: the host byte address. A FREE VALUE. -/
opaque powerOnByte : Nat → Nat → Byte

/-- What MOD holds in a cell after the n-th hardware reset until it is written (R342; log 4). First
argument: the reset's number; second: the cell's index 177 r + c. A FREE VALUE. -/
opaque powerOnMod : Nat → Nat → Bool

/-- The same for the reservation plane RES (R342; log 4). A FREE VALUE. -/
opaque powerOnRes : Nat → Nat → Bool

/-- `QRC_BASE`, the system address of QRC's window: OPEN (20_memory.md R60; log 10). Every address of the
model is an offset from it. A FREE VALUE. -/
opaque qrcBase : Nat

/-- `IRQ_LINE`, the platform interrupt input that irq drives, or none: OPEN (60_exceptions.md R308; log 10).
A FREE VALUE. -/
opaque irqLine : Option Nat

end Sys2Proof.Config
end

