-- ==== Sys2Proof/Machine/State.lean ====
section
/-!
DEFINITION. Sys2Proof/Machine/State.lean: the whole state of QRC as plain data (10_state.md), the state
after a hardware reset, the error codes of 60_exceptions.md R301 and the reasons a step can stop.
INVENTORY.md's "State" lists every field with its rule and reset value.
-/

namespace Sys2Proof.Machine

/-- The errors a command can raise (60_exceptions.md R301), in the order of their codes. -/
inductive CmdError where
  | capacityExceeded
  | charCountRange
  | invalidMode
  | unsupportedVersion
  | invalidEccLevel
  | invalidCharacter
  | illegalCommand
  | badArgument
  | sequence
deriving DecidableEq, Repr

/-- csr.STATUS but for BUSY, which is 1 exactly when the pending latch is full (10_state.md R24, R50; log 7). -/
structure Status where
  done    : Bool
  err     : Bool
  accerr  : Bool
  errcode : BitVec 4
  errop   : BitVec 8
deriving DecidableEq, Repr

/-- csr.CONFIG, the symbol parameters (10_state.md R31). `micro` is TYPE: 0 Normal, 1 Micro. -/
structure SymbolConfig where
  micro   : Bool
  version : BitVec 6
  ecc     : BitVec 3
  mode    : BitVec 3
deriving DecidableEq, Repr

/-- csr.STAGE: which pipeline results are valid (10_state.md R34). -/
structure Stage where
  /-- P: PACK done. -/
  p : Bool
  /-- E: ECCGEN done. -/
  e : Bool
  /-- R: RESERVE done. -/
  r : Bool
  /-- F: FILL done. -/
  f : Bool
  /-- M: a mask is selected and applied. -/
  m : Bool
  /-- T: format and version information written. -/
  t : Bool
deriving DecidableEq, Repr

/-- csr.MASKID (10_state.md R37). -/
structure MaskId where
  pattern : BitVec 3
  alt     : BitVec 2
deriving DecidableEq, Repr

/-- csr.MSCORE0..MSCORE7 (10_state.md R39). -/
structure MScores where
  m0 : Word
  m1 : Word
  m2 : Word
  m3 : Word
  m4 : Word
  m5 : Word
  m6 : Word
  m7 : Word
deriving DecidableEq, Repr

/-- The bytes of PBUF, DBUF and CWBUF that have been written since the last hardware reset, each under its
host address, addresses strictly rising (`Memory.wf`). A byte not listed has not been written: it has no
value here and reads as the free value of `Config.powerOnByte` (10_state.md R46, R52; log 4). -/
abbrev Memory := List Host.Cell

/-- The side of the module grid, GMAX (00_scope.md R6; 10_state.md R48). -/
abbrev gridSide : Nat := 177

/-- The cells of one plane, 177 × 177. -/
abbrev gridCells : Nat := 31329

/-- One bit plane of the module grid (10_state.md R48): two sets of cells, each held as the number whose bit
177 r + c is set when cell (r, c) is in it. `known` is the set of the cells written since the last hardware
reset, `bits` the set of those of them that hold a 1 (`Plane.wf`). A cell not written reads as a free value
(R52; log 4). -/
structure Plane where
  known : Nat
  bits  : Nat
deriving DecidableEq, Repr

/-- One host bus access (00_scope.md R11; 20_memory.md R64): a read or a write of the 32-bit word at an
address. -/
inductive Access where
  | read (a : HostAddr)
  | write (a : HostAddr) (v : Word)
deriving DecidableEq, Repr

/-- One event of a run: a turn of the core, a host access, or the platform's hardware reset
(10_state.md R47; 70_reset_and_hazards.md R340; log 1). -/
inductive Turn where
  | core
  | host (acc : Access)
  | reset
deriving DecidableEq, Repr

/-- The state of QRC (10_state.md R20), and the model's own fields `epoch`, `agenda` and `readData`. -/
structure State where
  /-- csr.CMD (R23). -/
  cmd      : Word
  /-- csr.STATUS (R24). -/
  status   : Status
  /-- csr.CTRL.IRQ_EN (R30). -/
  irqEn    : Bool
  /-- csr.CONFIG (R31). -/
  config   : SymbolConfig
  /-- csr.PLEN (R33). -/
  plen     : BitVec 16
  /-- csr.STAGE (R34). -/
  stage    : Stage
  /-- csr.SEGBITS (R35). -/
  segbits  : BitVec 16
  /-- csr.MODEUSED (R36). -/
  modeused : BitVec 3
  /-- csr.MASKID (R37). -/
  maskid   : MaskId
  /-- csr.SCORE (R38). -/
  score    : Word
  /-- csr.MSCORE0..MSCORE7 (R39). -/
  mscore   : MScores
  /-- csr.NDCW (R41). -/
  ndcw     : BitVec 16
  /-- csr.NCW (R42). -/
  ncw      : BitVec 16
  /-- csr.GFRES (R43). -/
  gfres    : BitVec 8
  /-- csr.ARG0 (R44). -/
  arg0     : Word
  /-- csr.ARG1 (R44). -/
  arg1     : Word
  /-- csr.ARG2 (R44). -/
  arg2     : Word
  /-- csr.ARG3 (R44). -/
  arg3     : Word
  /-- The pending latch (R50). -/
  pending  : Option Word
  /-- PBUF, DBUF and CWBUF (R46). -/
  mem      : Memory
  /-- The module plane MOD (R48). -/
  mod      : Plane
  /-- The reservation plane RES (R48). -/
  res      : Plane
  /-- The model's own: how many hardware resets there have been since the state after reset (log 5). -/
  epoch    : Nat
  /-- The model's own: the events still to come, in order (log 1). -/
  agenda   : List Turn
  /-- The model's own: the word the host's last read returned (log 6). -/
  readData : Word
deriving DecidableEq, Repr

/-- The reasons a step can stop with a fault. There is none: no host access and no command of QRC stops
it; a command that cannot be carried out completes with an error code in csr.STATUS (60_exceptions.md
R300, R303), and an access never faults (20_memory.md R65, R66). -/
inductive Fault
deriving DecidableEq, Repr

/-- The reasons a step can be refused. -/
inductive Refusal where
  /-- The command has no meaning in this model. Raised by a refused arm of `exec`; no arm is refused.
  Safe: it says nothing about the hardware. -/
  | notModelled (mnemonic : String)
deriving DecidableEq, Repr

/-- A plane in which no cell has been written. -/
def Plane.unwritten : Plane := { known := 0, bits := 0 }

/-- The state right after a hardware reset (10_state.md R21, R52; 70_reset_and_hazards.md R340, R342): every
CSR 0, the latch empty, no buffer byte and no grid cell written. The values of the model's own three
fields are DESIGN CHOICE (log 1, 5, 6). -/
def State.reset : State where
  cmd := 0#32
  status := { done := false, err := false, accerr := false, errcode := 0#4, errop := 0#8 }
  irqEn := false
  config := { micro := false, version := 0#6, ecc := 0#3, mode := 0#3 }
  plen := 0#16
  stage := { p := false, e := false, r := false, f := false, m := false, t := false }
  segbits := 0#16
  modeused := 0#3
  maskid := { pattern := 0#3, alt := 0#2 }
  score := 0#32
  mscore := { m0 := 0#32, m1 := 0#32, m2 := 0#32, m3 := 0#32, m4 := 0#32, m5 := 0#32, m6 := 0#32, m7 := 0#32 }
  ndcw := 0#16
  ncw := 0#16
  gfres := 0#8
  arg0 := 0#32
  arg1 := 0#32
  arg2 := 0#32
  arg3 := 0#32
  pending := none
  mem := []
  mod := Plane.unwritten
  res := Plane.unwritten
  epoch := 0
  agenda := []
  readData := 0#32

end Sys2Proof.Machine
end

