-- ==== Sys2Proof/Machine/Flags.lean ====
section
/-!
DEFINITION. Sys2Proof/Machine/Flags.lean: the flags of QRC, which are the fields of csr.STATUS and the bits of
csr.STAGE (10_state.md R51): the STATUS word, what sets and clears each field, the stage transitions of
70_reset_and_hazards.md R348, and the interrupt output.
-/

namespace Sys2Proof.Machine

/-- The code of an error in csr.STATUS.ERRCODE (60_exceptions.md R301). -/
def CmdError.code : CmdError → BitVec 4
  | .capacityExceeded => 1#4
  | .charCountRange => 2#4
  | .invalidMode => 3#4
  | .unsupportedVersion => 4#4
  | .invalidEccLevel => 5#4
  | .invalidCharacter => 6#4
  | .illegalCommand => 7#4
  | .badArgument => 8#4
  | .sequence => 9#4

/-- csr.STATUS.BUSY: 1 exactly when the pending latch is full (10_state.md R50). -/
def State.busy (s : State) : Bool := s.pending.isSome

/-- The STATUS word (10_state.md R24). -/
def State.statusWord (s : State) : Word :=
  0#8 ++ s.status.errop ++ 0#4 ++ s.status.errcode ++ 0#4 ++ BitVec.ofBool s.status.accerr
    ++ BitVec.ofBool s.status.err ++ BitVec.ofBool s.status.done ++ BitVec.ofBool s.busy

/-- The CTRL word: IRQ_EN in bit 0; SOFTRESET reads 0 (10_state.md R30). -/
def State.ctrlWord (s : State) : Word := 0#31 ++ BitVec.ofBool s.irqEn

/-- DONE, ERR, ERRCODE and ERROP cleared together; ACCERR kept (10_state.md R23, R26). -/
def Status.cleared (st : Status) : Status :=
  { st with done := false, err := false, errcode := 0#4, errop := 0#8 }

/-- The status of a completion without error (60_exceptions.md R304). -/
def Status.completedOk (st : Status) : Status :=
  { st with done := true, err := false, errcode := 0#4, errop := 0#8 }

/-- The status of a completion with an error (60_exceptions.md R303). -/
def Status.completedError (st : Status) (e : CmdError) (op : BitVec 8) : Status :=
  { st with done := true, err := true, errcode := e.code, errop := op }

/-- A host write of `w` to csr.STATUS: bit 1 acknowledges (R26), bit 3 clears ACCERR (10_state.md R28). -/
def Status.hostWrite (st : Status) (w : Word) : Status :=
  let st1 := if w.getLsbD 1 then st.cleared else st
  if w.getLsbD 3 then { st1 with accerr := false } else st1

/-- The sticky access error set (10_state.md R28). -/
def State.accessError (s : State) : State := { s with status := { s.status with accerr := true } }

/-- The interrupt output `irq` (60_exceptions.md R308). -/
def State.irq (s : State) : Bool := s.irqEn && s.status.done

/-- The platform's interrupt input and the level QRC drives on it, if it is wired (60_exceptions.md R308;
log 10). -/
def State.irqOutput (s : State) : Option (Nat × Bool) := Config.irqLine.map fun line => (line, s.irq)

/-- PACK sets P and clears E, F, M, T (70_reset_and_hazards.md R348). -/
def Stage.afterPack (st : Stage) : Stage := { st with p := true, e := false, f := false, m := false, t := false }

/-- ECCGEN sets E and clears F, M, T (R348). -/
def Stage.afterEccgen (st : Stage) : Stage := { st with e := true, f := false, m := false, t := false }

/-- RESERVE sets R and clears F, M, T (R348). -/
def Stage.afterReserve (st : Stage) : Stage := { st with r := true, f := false, m := false, t := false }

/-- FILL sets F and clears M, T (R348). -/
def Stage.afterFill (st : Stage) : Stage := { st with f := true, m := false, t := false }

/-- MASKSEL sets M and clears T (R348). -/
def Stage.afterMasksel (st : Stage) : Stage := { st with m := true, t := false }

/-- FORMAT sets T (R348). -/
def Stage.afterFormat (st : Stage) : Stage := { st with t := true }

end Sys2Proof.Machine
end

