-- ==== Sys2Proof/Machine/Params.lean ====
section
/-!
DEFINITION. Sys2Proof/Machine/Params.lean: the named parameters QRC takes (00_scope.md R6, R7;
92_eei_decisions.md D45) as one value, and what the machine computes from them: the field tables EXP and LOG,
the field product, the generator polynomials, the pad codewords. Every definition here takes the parameters
as its argument; Machine/Tables.lean gives this hardware's values.
-/

namespace Sys2Proof.Machine

/-! ## What the structure tables speak of -/

/-- The error-correction levels (20_memory.md R92; 30_encoding.md R108). -/
inductive EccLevel where
  | none
  | l
  | m
  | q
  | h
deriving DecidableEq, Repr

/-- The modes a payload can be packed in (41_packer.md R161, R163). -/
inductive Mode where
  | numeric
  | alphanumeric
  | byte
deriving DecidableEq, Repr

/-- A CodewordBlockGroup: `count` blocks of `total` codewords, `data` of them data (20_memory.md R82). -/
structure Group where
  count : Nat
  total : Nat
  data  : Nat
deriving DecidableEq, Repr

/-- A row of 20_memory.md R82: the block groups of the levels L, M, Q, H of one version. -/
structure NormalRow where
  l : List Group
  m : List Group
  q : List Group
  h : List Group
deriving DecidableEq, Repr

/-! ## The parameters -/

/-- `STRUCT_ROM`: the structure tables under the names 20_memory.md R82-R92 gives them (00_scope.md R6).
`micro` stands for csr.CONFIG.TYPE. They are constants of the machine and have no address (10_state.md R49),
so they are functions here and no part of State. -/
structure StructRom where
  /-- `groups(micro, ver, ecc)`, the block groups in block order (R82, R83). -/
  groups : Bool → Nat → EccLevel → List Group
  /-- `countBits(micro, ver, mode)`; none for a mode the symbol does not support (R85). -/
  countBits : Bool → Nat → Mode → Option Nat
  /-- `modeInd(micro, ver, mode)` as (width, value) (R86). -/
  modeInd : Bool → Nat → Mode → Nat × Nat
  /-- `termBits(micro, ver)` (R87). -/
  termBits : Bool → Nat → Nat
  /-- `alnum(ch)`; none for a byte outside the set (R88). -/
  alnum : Byte → Option Nat
  /-- `ALIGN[v]` (R89). -/
  align : Nat → List Nat
  /-- `fmtN(ecc, p)` (R90). -/
  fmtN : EccLevel → Nat → Nat
  /-- `fmtM(ver, ecc, a)` (R90). -/
  fmtM : Nat → EccLevel → Nat → Nat
  /-- `verInfo(v)` (R91). -/
  verInfo : Nat → Nat
  /-- `legalEcc(micro, ver)` (R92). -/
  legalEcc : Bool → Nat → List EccLevel

/-- The named parameters of QRC (00_scope.md R6, R7). -/
structure Params where
  /-- `GF_POLY` (40_gf_rs.md R130). -/
  gfPoly : Nat
  /-- `GEN_MAX` (40_gf_rs.md R134). -/
  genMax : Nat
  /-- `PAD_PAIR` (41_packer.md R175). -/
  padPair : Byte × Byte
  /-- `STRUCT_ROM` (20_memory.md R82-R92). -/
  structRom : StructRom

/-! ## The field of `GF_POLY` -/

/-- One more factor α: a shift, reduced by `GF_POLY` where bit 7 was set (40_gf_rs.md R131). -/
def Params.timesAlpha (P : Params) (x : Nat) : Nat := if x < 128 then 2 * x else (2 * x) ^^^ P.gfPoly

/-- α^i as a number (40_gf_rs.md R131). -/
def Params.alphaPow (P : Params) : Nat → Nat
  | 0 => 0x01
  | i + 1 => P.timesAlpha (P.alphaPow i)

/-- `EXP[i]`: α^i for i ≤ 254, and the filler 0x01 at 255 (20_memory.md R80; 40_gf_rs.md R131). -/
def Params.exp (P : Params) (i : Nat) : Byte := if i = 255 then 0x01#8 else BitVec.ofNat 8 (P.alphaPow i)

/-- The first index from `i` on whose power of α is `b`, where `x` is the power at `i`; at most `fuel` are
looked at. -/
def Params.logFrom (P : Params) (b : Nat) : Nat → Nat → Nat → Nat
  | 0, _, _ => 0
  | fuel + 1, i, x => if x = b then i else P.logFrom b fuel (i + 1) (P.timesAlpha x)

/-- `LOG[b]`: the i ≤ 254 with `EXP[i] = b`, and the filler 0x00 at 0 (20_memory.md R80; 40_gf_rs.md R131). -/
def Params.log (P : Params) (b : Nat) : Byte :=
  if b = 0 then 0x00#8 else BitVec.ofNat 8 (P.logFrom b 255 0 0x01)

/-- `gfmul(a, b)` (40_gf_rs.md R132). -/
def Params.gfmul (P : Params) (a b : Byte) : Byte :=
  if a = 0#8 ∨ b = 0#8 then 0#8
  else P.exp (((P.log a.toNat).toNat + (P.log b.toNat).toNat) % 255)

/-- The coefficients of g · (x − r), those of g being given highest power first (40_gf_rs.md R134). -/
def Params.timesRoot (P : Params) (g : List Byte) (r : Byte) : List Byte :=
  List.zipWith (fun a b => a ^^^ b) (g ++ [0#8]) (0#8 :: g.map (P.gfmul r))

/-- The coefficients of `g_n(x) = (x − α^0) ··· (x − α^(n−1))`, highest power first (40_gf_rs.md R134). -/
def Params.genPoly (P : Params) : Nat → List Byte
  | 0 => [0x01#8]
  | n + 1 => P.timesRoot (P.genPoly n) (P.exp n)

/-- `GEN[n][i]`, the coefficient of x^(n−i) in g_n, and 0 for n = 0, n > `GEN_MAX` and i > n (20_memory.md R79,
R81; 40_gf_rs.md R134). -/
def Params.gen (P : Params) (n i : Nat) : Byte :=
  if n = 0 ∨ P.genMax < n ∨ n < i then 0#8 else (P.genPoly n).getD i 0#8

/-! ## The pad codewords -/

/-- The k-th pad codeword, `PAD_PAIR[k mod 2]` (41_packer.md R175). -/
def Params.padCodeword (P : Params) (k : Nat) : Byte := if k % 2 = 0 then P.padPair.1 else P.padPair.2

end Sys2Proof.Machine
end

