-- ==== Sys2Proof/Machine/Tables.lean ====
section
/-!
DEFINITION. Sys2Proof/Machine/Tables.lean: this hardware's parameter values (00_scope.md R6): the structure
tables of 20_memory.md R82-R92 with their rows as the spec prints them, gathered in the named value
`Config.structRom`; all parameters in `Config.params`; and the read-only tables every command looks up
(10_state.md R49), which are those of `Config.params` (log 9).
-/

namespace Sys2Proof.Machine

/-! ## The rows -/

/-- 20_memory.md R82, versions 1 to 10. -/
def normalRowsA : List NormalRow :=
  [⟨[⟨1, 26, 19⟩], [⟨1, 26, 16⟩], [⟨1, 26, 13⟩], [⟨1, 26, 9⟩]⟩,
   ⟨[⟨1, 44, 34⟩], [⟨1, 44, 28⟩], [⟨1, 44, 22⟩], [⟨1, 44, 16⟩]⟩,
   ⟨[⟨1, 70, 55⟩], [⟨1, 70, 44⟩], [⟨2, 35, 17⟩], [⟨2, 35, 13⟩]⟩,
   ⟨[⟨1, 100, 80⟩], [⟨2, 50, 32⟩], [⟨2, 50, 24⟩], [⟨4, 25, 9⟩]⟩,
   ⟨[⟨1, 134, 108⟩], [⟨2, 67, 43⟩], [⟨2, 33, 15⟩, ⟨2, 34, 16⟩], [⟨2, 33, 11⟩, ⟨2, 34, 12⟩]⟩,
   ⟨[⟨2, 86, 68⟩], [⟨4, 43, 27⟩], [⟨4, 43, 19⟩], [⟨4, 43, 15⟩]⟩,
   ⟨[⟨2, 98, 78⟩], [⟨4, 49, 31⟩], [⟨2, 32, 14⟩, ⟨4, 33, 15⟩], [⟨4, 39, 13⟩, ⟨1, 40, 14⟩]⟩,
   ⟨[⟨2, 121, 97⟩], [⟨2, 60, 38⟩, ⟨2, 61, 39⟩], [⟨4, 40, 18⟩, ⟨2, 41, 19⟩], [⟨4, 40, 14⟩, ⟨2, 41, 15⟩]⟩,
   ⟨[⟨2, 146, 116⟩], [⟨3, 58, 36⟩, ⟨2, 59, 37⟩], [⟨4, 36, 16⟩, ⟨4, 37, 17⟩], [⟨4, 36, 12⟩, ⟨4, 37, 13⟩]⟩,
   ⟨[⟨2, 86, 68⟩, ⟨2, 87, 69⟩], [⟨4, 69, 43⟩, ⟨1, 70, 44⟩], [⟨6, 43, 19⟩, ⟨2, 44, 20⟩], [⟨6, 43, 15⟩, ⟨2, 44, 16⟩]⟩]

/-- 20_memory.md R82, versions 11 to 20. -/
def normalRowsB : List NormalRow :=
  [⟨[⟨4, 101, 81⟩], [⟨1, 80, 50⟩, ⟨4, 81, 51⟩], [⟨4, 50, 22⟩, ⟨4, 51, 23⟩], [⟨3, 36, 12⟩, ⟨8, 37, 13⟩]⟩,
   ⟨[⟨2, 116, 92⟩, ⟨2, 117, 93⟩], [⟨6, 58, 36⟩, ⟨2, 59, 37⟩], [⟨4, 46, 20⟩, ⟨6, 47, 21⟩], [⟨7, 42, 14⟩, ⟨4, 43, 15⟩]⟩,
   ⟨[⟨4, 133, 107⟩], [⟨8, 59, 37⟩, ⟨1, 60, 38⟩], [⟨8, 44, 20⟩, ⟨4, 45, 21⟩], [⟨12, 33, 11⟩, ⟨4, 34, 12⟩]⟩,
   ⟨[⟨3, 145, 115⟩, ⟨1, 146, 116⟩], [⟨4, 64, 40⟩, ⟨5, 65, 41⟩], [⟨11, 36, 16⟩, ⟨5, 37, 17⟩], [⟨11, 36, 12⟩, ⟨5, 37, 13⟩]⟩,
   ⟨[⟨5, 109, 87⟩, ⟨1, 110, 88⟩], [⟨5, 65, 41⟩, ⟨5, 66, 42⟩], [⟨5, 54, 24⟩, ⟨7, 55, 25⟩], [⟨11, 36, 12⟩, ⟨7, 37, 13⟩]⟩,
   ⟨[⟨5, 122, 98⟩, ⟨1, 123, 99⟩], [⟨7, 73, 45⟩, ⟨3, 74, 46⟩], [⟨15, 43, 19⟩, ⟨2, 44, 20⟩], [⟨3, 45, 15⟩, ⟨13, 46, 16⟩]⟩,
   ⟨[⟨1, 135, 107⟩, ⟨5, 136, 108⟩], [⟨10, 74, 46⟩, ⟨1, 75, 47⟩], [⟨1, 50, 22⟩, ⟨15, 51, 23⟩], [⟨2, 42, 14⟩, ⟨17, 43, 15⟩]⟩,
   ⟨[⟨5, 150, 120⟩, ⟨1, 151, 121⟩], [⟨9, 69, 43⟩, ⟨4, 70, 44⟩], [⟨17, 50, 22⟩, ⟨1, 51, 23⟩], [⟨2, 42, 14⟩, ⟨19, 43, 15⟩]⟩,
   ⟨[⟨3, 141, 113⟩, ⟨4, 142, 114⟩], [⟨3, 70, 44⟩, ⟨11, 71, 45⟩], [⟨17, 47, 21⟩, ⟨4, 48, 22⟩], [⟨9, 39, 13⟩, ⟨16, 40, 14⟩]⟩,
   ⟨[⟨3, 135, 107⟩, ⟨5, 136, 108⟩], [⟨3, 67, 41⟩, ⟨13, 68, 42⟩], [⟨15, 54, 24⟩, ⟨5, 55, 25⟩], [⟨15, 43, 15⟩, ⟨10, 44, 16⟩]⟩]

/-- 20_memory.md R82, versions 21 to 30. -/
def normalRowsC : List NormalRow :=
  [⟨[⟨4, 144, 116⟩, ⟨4, 145, 117⟩], [⟨17, 68, 42⟩], [⟨17, 50, 22⟩, ⟨6, 51, 23⟩], [⟨19, 46, 16⟩, ⟨6, 47, 17⟩]⟩,
   ⟨[⟨2, 139, 111⟩, ⟨7, 140, 112⟩], [⟨17, 74, 46⟩], [⟨7, 54, 24⟩, ⟨16, 55, 25⟩], [⟨34, 37, 13⟩]⟩,
   ⟨[⟨4, 151, 121⟩, ⟨5, 152, 122⟩], [⟨4, 75, 47⟩, ⟨14, 76, 48⟩], [⟨11, 54, 24⟩, ⟨14, 55, 25⟩], [⟨16, 45, 15⟩, ⟨14, 46, 16⟩]⟩,
   ⟨[⟨6, 147, 117⟩, ⟨4, 148, 118⟩], [⟨6, 73, 45⟩, ⟨14, 74, 46⟩], [⟨11, 54, 24⟩, ⟨16, 55, 25⟩], [⟨30, 46, 16⟩, ⟨2, 47, 17⟩]⟩,
   ⟨[⟨8, 132, 106⟩, ⟨4, 133, 107⟩], [⟨8, 75, 47⟩, ⟨13, 76, 48⟩], [⟨7, 54, 24⟩, ⟨22, 55, 25⟩], [⟨22, 45, 15⟩, ⟨13, 46, 16⟩]⟩,
   ⟨[⟨10, 142, 114⟩, ⟨2, 143, 115⟩], [⟨19, 74, 46⟩, ⟨4, 75, 47⟩], [⟨28, 50, 22⟩, ⟨6, 51, 23⟩], [⟨33, 46, 16⟩, ⟨4, 47, 17⟩]⟩,
   ⟨[⟨8, 152, 122⟩, ⟨4, 153, 123⟩], [⟨22, 73, 45⟩, ⟨3, 74, 46⟩], [⟨8, 53, 23⟩, ⟨26, 54, 24⟩], [⟨12, 45, 15⟩, ⟨28, 46, 16⟩]⟩,
   ⟨[⟨3, 147, 117⟩, ⟨10, 148, 118⟩], [⟨3, 73, 45⟩, ⟨23, 74, 46⟩], [⟨4, 54, 24⟩, ⟨31, 55, 25⟩], [⟨11, 45, 15⟩, ⟨31, 46, 16⟩]⟩,
   ⟨[⟨7, 146, 116⟩, ⟨7, 147, 117⟩], [⟨21, 73, 45⟩, ⟨7, 74, 46⟩], [⟨1, 53, 23⟩, ⟨37, 54, 24⟩], [⟨19, 45, 15⟩, ⟨26, 46, 16⟩]⟩,
   ⟨[⟨5, 145, 115⟩, ⟨10, 146, 116⟩], [⟨19, 75, 47⟩, ⟨10, 76, 48⟩], [⟨15, 54, 24⟩, ⟨25, 55, 25⟩], [⟨23, 45, 15⟩, ⟨25, 46, 16⟩]⟩]

/-- 20_memory.md R82, versions 31 to 40. -/
def normalRowsD : List NormalRow :=
  [⟨[⟨13, 145, 115⟩, ⟨3, 146, 116⟩], [⟨2, 74, 46⟩, ⟨29, 75, 47⟩], [⟨42, 54, 24⟩, ⟨1, 55, 25⟩], [⟨23, 45, 15⟩, ⟨28, 46, 16⟩]⟩,
   ⟨[⟨17, 145, 115⟩], [⟨10, 74, 46⟩, ⟨23, 75, 47⟩], [⟨10, 54, 24⟩, ⟨35, 55, 25⟩], [⟨19, 45, 15⟩, ⟨35, 46, 16⟩]⟩,
   ⟨[⟨17, 145, 115⟩, ⟨1, 146, 116⟩], [⟨14, 74, 46⟩, ⟨21, 75, 47⟩], [⟨29, 54, 24⟩, ⟨19, 55, 25⟩], [⟨11, 45, 15⟩, ⟨46, 46, 16⟩]⟩,
   ⟨[⟨13, 145, 115⟩, ⟨6, 146, 116⟩], [⟨14, 74, 46⟩, ⟨23, 75, 47⟩], [⟨44, 54, 24⟩, ⟨7, 55, 25⟩], [⟨59, 46, 16⟩, ⟨1, 47, 17⟩]⟩,
   ⟨[⟨12, 151, 121⟩, ⟨7, 152, 122⟩], [⟨12, 75, 47⟩, ⟨26, 76, 48⟩], [⟨39, 54, 24⟩, ⟨14, 55, 25⟩], [⟨22, 45, 15⟩, ⟨41, 46, 16⟩]⟩,
   ⟨[⟨6, 151, 121⟩, ⟨14, 152, 122⟩], [⟨6, 75, 47⟩, ⟨34, 76, 48⟩], [⟨46, 54, 24⟩, ⟨10, 55, 25⟩], [⟨2, 45, 15⟩, ⟨64, 46, 16⟩]⟩,
   ⟨[⟨17, 152, 122⟩, ⟨4, 153, 123⟩], [⟨29, 74, 46⟩, ⟨14, 75, 47⟩], [⟨49, 54, 24⟩, ⟨10, 55, 25⟩], [⟨24, 45, 15⟩, ⟨46, 46, 16⟩]⟩,
   ⟨[⟨4, 152, 122⟩, ⟨18, 153, 123⟩], [⟨13, 74, 46⟩, ⟨32, 75, 47⟩], [⟨48, 54, 24⟩, ⟨14, 55, 25⟩], [⟨42, 45, 15⟩, ⟨32, 46, 16⟩]⟩,
   ⟨[⟨20, 147, 117⟩, ⟨4, 148, 118⟩], [⟨40, 75, 47⟩, ⟨7, 76, 48⟩], [⟨43, 54, 24⟩, ⟨22, 55, 25⟩], [⟨10, 45, 15⟩, ⟨67, 46, 16⟩]⟩,
   ⟨[⟨19, 148, 118⟩, ⟨6, 149, 119⟩], [⟨18, 75, 47⟩, ⟨31, 76, 48⟩], [⟨34, 54, 24⟩, ⟨34, 55, 25⟩], [⟨20, 45, 15⟩, ⟨61, 46, 16⟩]⟩]

/-- The alignment centre coordinates of 20_memory.md R89, versions 1 to 20. -/
def alignRowsA : List (List Nat) :=
  [[],
   [6, 18],
   [6, 22],
   [6, 26],
   [6, 30],
   [6, 34],
   [6, 22, 38],
   [6, 24, 42],
   [6, 26, 46],
   [6, 28, 50],
   [6, 30, 54],
   [6, 32, 58],
   [6, 34, 62],
   [6, 26, 46, 66],
   [6, 26, 48, 70],
   [6, 26, 50, 74],
   [6, 30, 54, 78],
   [6, 30, 56, 82],
   [6, 30, 58, 86],
   [6, 34, 62, 90]]

/-- The alignment centre coordinates of R89, versions 21 to 40. -/
def alignRowsB : List (List Nat) :=
  [[6, 28, 50, 72, 94],
   [6, 26, 50, 74, 98],
   [6, 30, 54, 78, 102],
   [6, 28, 54, 80, 106],
   [6, 32, 58, 84, 110],
   [6, 30, 58, 86, 114],
   [6, 34, 62, 90, 118],
   [6, 26, 50, 74, 98, 122],
   [6, 30, 54, 78, 102, 126],
   [6, 26, 52, 78, 104, 130],
   [6, 30, 56, 82, 108, 134],
   [6, 34, 60, 86, 112, 138],
   [6, 30, 58, 86, 114, 142],
   [6, 34, 62, 90, 118, 146],
   [6, 30, 54, 78, 102, 126, 150],
   [6, 24, 50, 76, 102, 128, 154],
   [6, 28, 54, 80, 106, 132, 158],
   [6, 32, 58, 84, 110, 136, 162],
   [6, 26, 54, 82, 110, 138, 166],
   [6, 30, 58, 86, 114, 142, 170]]

/-- 20_memory.md R90, Normal, level L, p = 0..7. -/
def formatNormalL : List Nat :=
  [0x77C4, 0x72F3, 0x7DAA, 0x789D, 0x662F, 0x6318, 0x6C41, 0x6976]

/-- 20_memory.md R90, Normal, level M, p = 0..7. -/
def formatNormalM : List Nat :=
  [0x5412, 0x5125, 0x5E7C, 0x5B4B, 0x45F9, 0x40CE, 0x4F97, 0x4AA0]

/-- 20_memory.md R90, Normal, level Q, p = 0..7. -/
def formatNormalQ : List Nat :=
  [0x355F, 0x3068, 0x3F31, 0x3A06, 0x24B4, 0x2183, 0x2EDA, 0x2BED]

/-- 20_memory.md R90, Normal, level H, p = 0..7. -/
def formatNormalH : List Nat :=
  [0x1689, 0x13BE, 0x1CE7, 0x19D0, 0x0762, 0x0255, 0x0D0C, 0x083B]

/-- 20_memory.md R90, Micro, by symbol number s = 0..7: the words of a = 0..3. -/
def formatMicroRows : List (List Nat) :=
  [[0x4445, 0x4172, 0x4E2B, 0x4B1C],
   [0x55AE, 0x5099, 0x5FC0, 0x5AF7],
   [0x6793, 0x62A4, 0x6DFD, 0x68CA],
   [0x7678, 0x734F, 0x7C16, 0x7921],
   [0x06DE, 0x03E9, 0x0CB0, 0x0987],
   [0x1735, 0x1202, 0x1D5B, 0x186C],
   [0x2508, 0x203F, 0x2F66, 0x2A51],
   [0x34E3, 0x31D4, 0x3E8D, 0x3BBA]]

/-- 20_memory.md R91: the version words of versions 7 to 40. -/
def versionRows : List Nat :=
  [0x07C94, 0x085BC, 0x09A99, 0x0A4D3, 0x0BBF6, 0x0C762, 0x0D847, 0x0E60D,
   0x0F928, 0x10B78, 0x1145D, 0x12A17, 0x13532, 0x149A6, 0x15683, 0x168C9,
   0x177EC, 0x18EC4, 0x191E1, 0x1AFAB, 0x1B08E, 0x1CC1A, 0x1D33F, 0x1ED75,
   0x1F250, 0x209D5, 0x216F0, 0x228BA, 0x2379F, 0x24B0B, 0x2542E, 0x26A64,
   0x27541, 0x28C69]

/-! ## The tables by name -/

/-- The block structure of Normal symbols (20_memory.md R82), row v − 1 for version v. -/
def normalRows : List NormalRow := normalRowsA ++ normalRowsB ++ normalRowsC ++ normalRowsD

/-- The groups of one level of a row. None is no level of a Normal symbol (R92). -/
def NormalRow.groups (row : NormalRow) : EccLevel → List Group
  | .none => []
  | .l => row.l
  | .m => row.m
  | .q => row.q
  | .h => row.h

/-- Micro block structure, one block a symbol (20_memory.md R83). -/
def microGroups (ver : Nat) (level : EccLevel) : List Group :=
  match ver, level with
  | 1, .none => [⟨1, 5, 3⟩]
  | 2, .l => [⟨1, 10, 5⟩]
  | 2, .m => [⟨1, 10, 4⟩]
  | 3, .l => [⟨1, 17, 11⟩]
  | 3, .m => [⟨1, 17, 9⟩]
  | 4, .l => [⟨1, 24, 16⟩]
  | 4, .m => [⟨1, 24, 14⟩]
  | 4, .q => [⟨1, 24, 10⟩]
  | _, _ => []

/-- `groups(micro, ver, ecc)` of 20_memory.md R84; empty for a symbol that does not exist. -/
def isoGroups (micro : Bool) (ver : Nat) (level : EccLevel) : List Group :=
  if micro then microGroups ver level
  else
    match ver with
    | 0 => []
    | v + 1 =>
      match normalRows[v]? with
      | some row => row.groups level
      | none => []

/-- `legalEcc(micro, ver)` (20_memory.md R92). -/
def isoLegalEcc (micro : Bool) (ver : Nat) : List EccLevel :=
  if micro then
    match ver with
    | 1 => [.none]
    | 2 => [.l, .m]
    | 3 => [.l, .m]
    | 4 => [.l, .m, .q]
    | _ => []
  else [.l, .m, .q, .h]

/-- `countBits(micro, ver, mode)` (20_memory.md R85); none where the symbol does not support the mode. -/
def isoCountBits (micro : Bool) (ver : Nat) (mode : Mode) : Option Nat :=
  if micro then
    match ver, mode with
    | 1, .numeric => some 3
    | 2, .numeric => some 4
    | 2, .alphanumeric => some 3
    | 3, .numeric => some 5
    | 3, .alphanumeric => some 4
    | 3, .byte => some 4
    | 4, .numeric => some 6
    | 4, .alphanumeric => some 5
    | 4, .byte => some 5
    | _, _ => none
  else if ver ≤ 9 then
    match mode with
    | .numeric => some 10
    | .alphanumeric => some 9
    | .byte => some 8
  else if ver ≤ 26 then
    match mode with
    | .numeric => some 12
    | .alphanumeric => some 11
    | .byte => some 16
  else
    match mode with
    | .numeric => some 14
    | .alphanumeric => some 13
    | .byte => some 16

/-- The mode indicator `modeInd(micro, ver, mode)` as (width, value) (20_memory.md R86). A Micro symbol's
width is ver − 1 and its value the mode's code. -/
def isoModeInd (micro : Bool) (ver : Nat) (mode : Mode) : Nat × Nat :=
  if micro then
    match mode with
    | .numeric => (ver - 1, 0)
    | .alphanumeric => (ver - 1, 1)
    | .byte => (ver - 1, 2)
  else
    match mode with
    | .numeric => (4, 1)
    | .alphanumeric => (4, 2)
    | .byte => (4, 4)

/-- `termBits(micro, ver)` (20_memory.md R87). -/
def isoTermBits (micro : Bool) (ver : Nat) : Nat := if micro then 2 * ver + 1 else 4

/-- `alnum(ch)`, none for a byte outside the set of 45 (20_memory.md R88). -/
def isoAlnum (ch : Byte) : Option Nat :=
  let b := ch.toNat
  if 0x30 ≤ b ∧ b ≤ 0x39 then some (b - 0x30)
  else if 0x41 ≤ b ∧ b ≤ 0x5A then some (b - 0x41 + 10)
  else if b = 0x20 then some 36
  else if b = 0x24 then some 37
  else if b = 0x25 then some 38
  else if b = 0x2A then some 39
  else if b = 0x2B then some 40
  else if b = 0x2D then some 41
  else if b = 0x2E then some 42
  else if b = 0x2F then some 43
  else if b = 0x3A then some 44
  else none

/-- `ALIGN(v)`, the alignment centre coordinates of a Normal version (20_memory.md R89). -/
def isoAlign (ver : Nat) : List Nat := (alignRowsA ++ alignRowsB).getD (ver - 1) []

/-- `fmtN(ecc, p)`, the Normal format words (20_memory.md R90). None is no level of a Normal symbol. -/
def isoFmtN (level : EccLevel) (p : Nat) : Nat :=
  match level with
  | .none => 0
  | .l => formatNormalL.getD p 0
  | .m => formatNormalM.getD p 0
  | .q => formatNormalQ.getD p 0
  | .h => formatNormalH.getD p 0

/-- The symbol number s of a Micro symbol and level (44_format_control.md R281). -/
def microSymbolNumber (ver : Nat) (level : EccLevel) : Nat :=
  match ver, level with
  | 1, _ => 0
  | 2, .l => 1
  | 2, _ => 2
  | 3, .l => 3
  | 3, _ => 4
  | _, .l => 5
  | _, .m => 6
  | _, _ => 7

/-- `fmtM(ver, ecc, a)`, the Micro format words (20_memory.md R90). -/
def isoFmtM (ver : Nat) (level : EccLevel) (a : Nat) : Nat :=
  (formatMicroRows.getD (microSymbolNumber ver level) []).getD a 0

/-- `verInfo(v)`, the version words of versions 7 to 40 (20_memory.md R91). -/
def isoVerInfo (ver : Nat) : Nat := versionRows.getD (ver - 7) 0

end Sys2Proof.Machine

namespace Sys2Proof.Config

open Sys2Proof.Machine

/-- `STRUCT_ROM`, the tables of 20_memory.md R82-R92 (00_scope.md R6). -/
def structRom : StructRom where
  groups := isoGroups
  countBits := isoCountBits
  modeInd := isoModeInd
  termBits := isoTermBits
  alnum := isoAlnum
  align := isoAlign
  fmtN := isoFmtN
  fmtM := isoFmtM
  verInfo := isoVerInfo
  legalEcc := isoLegalEcc

/-- The parameters the machine is built with, at the defaults of 00_scope.md R6 (R7; log 9). Everything below and
every command reads them from here, so another value here is another machine. -/
def params : Params where
  gfPoly := gfPoly
  genMax := genMax
  padPair := padPair
  structRom := structRom

end Sys2Proof.Config

namespace Sys2Proof.Machine

/-! ## The tables of this hardware -/

/-- `EXP[i]` (20_memory.md R80). -/
def expRom (i : Nat) : Byte := Config.params.exp i

/-- `LOG[i]` (20_memory.md R80). -/
def logRom (i : Nat) : Byte := Config.params.log i

/-- `GEN[n][i]` (20_memory.md R79, R81). -/
def genRom (n i : Nat) : Byte := Config.params.gen n i

/-- `groups(micro, ver, ecc)` (20_memory.md R82-R84); empty for a symbol that does not exist. -/
def groups (micro : Bool) (ver : Nat) (level : EccLevel) : List Group :=
  Config.params.structRom.groups micro ver level

/-- `legalEcc(micro, ver)` (20_memory.md R92). -/
def legalEcc (micro : Bool) (ver : Nat) : List EccLevel := Config.params.structRom.legalEcc micro ver

/-- `countBits(micro, ver, mode)` (20_memory.md R85). -/
def countBits (micro : Bool) (ver : Nat) (mode : Mode) : Option Nat :=
  Config.params.structRom.countBits micro ver mode

/-- `modeInd(micro, ver, mode)` as (width, value) (20_memory.md R86). -/
def modeInd (micro : Bool) (ver : Nat) (mode : Mode) : Nat × Nat := Config.params.structRom.modeInd micro ver mode

/-- `termBits(micro, ver)` (20_memory.md R87). -/
def termBits (micro : Bool) (ver : Nat) : Nat := Config.params.structRom.termBits micro ver

/-- `alnum(ch)` (20_memory.md R88). -/
def alnum (ch : Byte) : Option Nat := Config.params.structRom.alnum ch

/-- `ALIGN[v]` (20_memory.md R89). -/
def alignCentres (ver : Nat) : List Nat := Config.params.structRom.align ver

/-- `fmtN(ecc, p)` (20_memory.md R90). -/
def fmtN (level : EccLevel) (p : Nat) : Nat := Config.params.structRom.fmtN level p

/-- `fmtM(ver, ecc, a)` (20_memory.md R90). -/
def fmtM (ver : Nat) (level : EccLevel) (a : Nat) : Nat := Config.params.structRom.fmtM ver level a

/-- `verInfo(v)` (20_memory.md R91). -/
def verInfo (ver : Nat) : Nat := Config.params.structRom.verInfo ver

/-! The constructions behind the format and version tables (44_format_control.md R280-R284). The tables are
normative and are what FORMAT reads; Laws/Tables.lean proves that the constructions give them. -/

/-- One round of `bchRem` (44_format_control.md R282). -/
def bchRound (poly n rem : Nat) : Nat :=
  (rem <<< 1) ^^^ (if (rem >>> (n - 1)) &&& 1 = 1 then poly else 0)

/-- `bchRem(data, k, poly, n)` (44_format_control.md R282); k is not used. -/
def bchRem (data poly n : Nat) : Nat := (Nat.repeat (bchRound poly n) n data) &&& (2 ^ n - 1)

/-- `eccBits` of 44_format_control.md R280. -/
def eccBits : EccLevel → Nat
  | .none => 0
  | .l => 1
  | .m => 0
  | .q => 3
  | .h => 2

/-- The construction of `fmtN` (44_format_control.md R280). -/
def fmtNConstructed (level : EccLevel) (p : Nat) : Nat :=
  let d := (eccBits level <<< 3) ||| p
  ((d <<< 10) ||| bchRem d 0x537 10) ^^^ 0x5412

/-- The construction of `fmtM` (44_format_control.md R281). -/
def fmtMConstructed (ver : Nat) (level : EccLevel) (a : Nat) : Nat :=
  let d := (microSymbolNumber ver level <<< 2) ||| a
  ((d <<< 10) ||| bchRem d 0x537 10) ^^^ 0x4445

/-- The construction of `verInfo` (44_format_control.md R284). -/
def verInfoConstructed (ver : Nat) : Nat := (ver <<< 12) ||| bchRem ver 0x1F25 12

end Sys2Proof.Machine
end

