-- ==== Sys2Proof/Machine/Operands.lean ====
section
/-!
DEFINITION. Sys2Proof/Machine/Operands.lean: the operands of the commands: the symbol parameters every
command reads from csr.CONFIG (10_state.md R32; 20_memory.md R84), the argument registers (30_encoding.md
R103), and the word forms of the operand registers CONFIG, STAGE and MASKID (30_encoding.md R108, R109).
-/

namespace Sys2Proof.Machine

/-- `ver` of 10_state.md R32. -/
def SymbolConfig.ver (c : SymbolConfig) : Nat := c.version.toNat

/-- `versionOK` of 10_state.md R32. -/
def SymbolConfig.versionOK (c : SymbolConfig) : Bool :=
  if c.micro then decide (1 ≤ c.ver ∧ c.ver ≤ 4) else decide (1 ≤ c.ver ∧ c.ver ≤ 40)

/-- The level csr.CONFIG.ECC names; 5..7 name none (30_encoding.md R108). -/
def SymbolConfig.level (c : SymbolConfig) : Option EccLevel :=
  match c.ecc.toNat with
  | 0 => some .none
  | 1 => some .l
  | 2 => some .m
  | 3 => some .q
  | 4 => some .h
  | _ => none

/-- `eccOK` of 10_state.md R32. -/
def SymbolConfig.eccOK (c : SymbolConfig) : Bool :=
  match c.level with
  | some level => (legalEcc c.micro c.ver).contains level
  | none => false

/-- `dim` of 10_state.md R32, the side of the symbol in modules. -/
def SymbolConfig.dim (c : SymbolConfig) : Nat := if c.micro then 9 + 2 * c.ver else 17 + 4 * c.ver

/-- `nibbleShort` of 10_state.md R32: M1 and M3. -/
def SymbolConfig.nibbleShort (c : SymbolConfig) : Bool := c.micro && (c.ver == 1 || c.ver == 3)

/-- `checkConfig()` of 10_state.md R32: the first error it raises, if any. -/
def SymbolConfig.check (c : SymbolConfig) : Option CmdError :=
  if c.versionOK = false then some .unsupportedVersion
  else if c.eccOK = false then some .invalidEccLevel
  else none

/-- The block groups G of the symbol in CONFIG (20_memory.md R84). -/
def SymbolConfig.groups (c : SymbolConfig) : List Group :=
  match c.level with
  | some level => Sys2Proof.Machine.groups c.micro c.ver level
  | none => []

/-- `nData`, the number of data codewords (20_memory.md R84). -/
def SymbolConfig.nData (c : SymbolConfig) : Nat := (c.groups.map fun g => g.count * g.data).sum

/-- `nTotal`, the number of codewords (20_memory.md R84). -/
def SymbolConfig.nTotal (c : SymbolConfig) : Nat := (c.groups.map fun g => g.count * g.total).sum

/-- `L`, the data capacity in bits (20_memory.md R84). -/
def SymbolConfig.capacity (c : SymbolConfig) : Nat := 8 * c.nData - (if c.nibbleShort then 4 else 0)

/-- `nBits`, the bits FILL places (20_memory.md R84). -/
def SymbolConfig.nBits (c : SymbolConfig) : Nat := 8 * c.nTotal - (if c.nibbleShort then 4 else 0)

/-- The value of csr.DIM (10_state.md R40). -/
def SymbolConfig.dimRegister (c : SymbolConfig) : Nat := if c.versionOK then c.dim else 0

/-- The mode a named csr.CONFIG.MODE stands for: 0, 1 and 2 (41_packer.md R161). -/
def SymbolConfig.namedMode (c : SymbolConfig) : Option Mode :=
  match c.mode.toNat with
  | 0 => some .numeric
  | 1 => some .alphanumeric
  | 2 => some .byte
  | _ => none

/-- csr.CONFIG.MODE = 7, AUTO (41_packer.md R161). -/
def SymbolConfig.auto (c : SymbolConfig) : Bool := c.mode == 7#3

/-- The code of a mode, as csr.MODEUSED holds it (10_state.md R36). -/
def Mode.code : Mode → BitVec 3
  | .numeric => 0#3
  | .alphanumeric => 1#3
  | .byte => 2#3

/-- The CONFIG word `{5'b0, MODE, 5'b0, ECC, 2'b0, VERSION, 7'b0, TYPE}` (30_encoding.md R108). -/
def SymbolConfig.toWord (c : SymbolConfig) : Word :=
  0#5 ++ c.mode ++ 0#5 ++ c.ecc ++ 0#2 ++ c.version ++ 0#7 ++ BitVec.ofBool c.micro

/-- The fields a CONFIG write stores; the reserved bits are dropped (10_state.md R21, R31). -/
def SymbolConfig.ofWord (w : Word) : SymbolConfig where
  micro := w.getLsbD 0
  version := w.extractLsb' 8 6
  ecc := w.extractLsb' 16 3
  mode := w.extractLsb' 24 3

/-- The STAGE word: P, E, R, F, M, T in bits 0 to 5 (10_state.md R34). -/
def Stage.toWord (st : Stage) : Word :=
  0#26 ++ BitVec.ofBool st.t ++ BitVec.ofBool st.m ++ BitVec.ofBool st.f ++ BitVec.ofBool st.r
    ++ BitVec.ofBool st.e ++ BitVec.ofBool st.p

/-- The bits a STAGE write stores (10_state.md R34). -/
def Stage.ofWord (w : Word) : Stage where
  p := w.getLsbD 0
  e := w.getLsbD 1
  r := w.getLsbD 2
  f := w.getLsbD 3
  m := w.getLsbD 4
  t := w.getLsbD 5

/-- No stage done. -/
def Stage.none : Stage := { p := false, e := false, r := false, f := false, m := false, t := false }

/-- The MASKID word: PATTERN in bits 2:0, ALT in bits 9:8 (10_state.md R37; 30_encoding.md R109). -/
def MaskId.toWord (k : MaskId) : Word := 0#22 ++ k.alt ++ 0#5 ++ k.pattern

/-- The fields a MASKID write stores (10_state.md R37). -/
def MaskId.ofWord (w : Word) : MaskId where
  pattern := w.extractLsb' 0 3
  alt := w.extractLsb' 8 2

/-- GFMUL's first operand, ARG0[7:0] (40_gf_rs.md R135). -/
def State.gfA (s : State) : Byte := s.arg0.extractLsb' 0 8

/-- GFMUL's second operand, ARG1[7:0] (40_gf_rs.md R135). -/
def State.gfB (s : State) : Byte := s.arg1.extractLsb' 0 8

/-- Candidate register m of MSCORE0..MSCORE7 (10_state.md R39). -/
def MScores.get (k : MScores) (m : Nat) : Word :=
  match m with
  | 0 => k.m0
  | 1 => k.m1
  | 2 => k.m2
  | 3 => k.m3
  | 4 => k.m4
  | 5 => k.m5
  | 6 => k.m6
  | _ => k.m7

/-- MSCORE0..MSCORE7, register m holding `f m`. -/
def MScores.ofFn (f : Nat → Word) : MScores where
  m0 := f 0
  m1 := f 1
  m2 := f 2
  m3 := f 3
  m4 := f 4
  m5 := f 5
  m6 := f 6
  m7 := f 7

end Sys2Proof.Machine
end

