-- ==== Sys2Proof/Machine/Ops.lean ====
section
/-!
DEFINITION. Sys2Proof/Machine/Ops.lean: the named operations everything else is written over: bit sequences
(00_scope.md R13, R14), the buffer memory, the two grid planes, and the end of a command, with an error
(60_exceptions.md R303: what QRC has in place of taking an exception) and without one (R304).
-/

namespace Sys2Proof.Machine

/-! ## Bit sequences -/

/-- `bits(v, w)`: the w low bits of v, most significant first (00_scope.md R13). -/
def bits (v w : Nat) : List Bool := (List.range w).map fun k => v.testBit (w - 1 - k)

/-- The byte whose bit 7 is the first of eight bits; missing bits are 0 (20_memory.md R63; 41_packer.md R178). -/
def byteOfBits (l : List Bool) : Byte :=
  BitVec.ofNat 8 (((List.range 8).map fun j => if l.getD j false then 2 ^ (7 - j) else 0).sum)

/-- The first `n` bytes of a bit sequence: byte i is bits 8i..8i+7 (41_packer.md R178). -/
def bytesOfBits : Nat → List Bool → List Byte
  | 0, _ => []
  | n + 1, l => byteOfBits (l.take 8) :: bytesOfBits n (l.drop 8)

/-! ## Buffer memory -/

/-- The host byte addresses of PBUF, DBUF and CWBUF lie from here … (20_memory.md R61). -/
abbrev bufferBase : Nat := 0x02000

/-- … up to here, not included. -/
abbrev bufferEnd : Nat := 0x06000

/-- The host byte address of PBUF[0] (20_memory.md R61). -/
abbrev pbufBase : Nat := 0x02000

/-- The host byte address of DBUF[0] (R61). -/
abbrev dbufBase : Nat := 0x04000

/-- The host byte address of CWBUF[0] (R61). -/
abbrev cwbufBase : Nat := 0x05000

/-- What is written at an address, if anything has been written there. -/
def Memory.lookup : Memory → Nat → Option Byte
  | [], _ => none
  | (b, v) :: m, a => if a = b then some v else Memory.lookup m a

/-- Every address of `m` lies above `lo`, and they rise strictly. -/
def Memory.risesAbove (lo : Nat) : Memory → Bool
  | [] => true
  | (b, _) :: m => decide (lo < b) && Memory.risesAbove b m

/-- The canonical form: addresses strictly rising and all of them buffer addresses. An unlisted address holds
no value at all (log 4), so no entry can equal what an unlisted address holds, and memories that hold the
same bytes are the same list. -/
def Memory.wf (m : Memory) : Bool :=
  Memory.risesAbove (bufferBase - 1) m && m.all fun c => decide (c.1 < bufferEnd)

/-- Store consecutive bytes from an address on; every other byte stays. -/
def Memory.store (m : Memory) (base : Nat) (bs : List Byte) : Memory :=
  m.filter (fun c => decide (c.1 < base))
    ++ bs.zipIdx.map (fun p => (base + p.2, p.1))
    ++ m.filter (fun c => decide (base + bs.length ≤ c.1))

/-- The buffer byte at a host address: what was written there, or the free power-on value
(70_reset_and_hazards.md R342; log 4). -/
def State.memByte (s : State) (a : Nat) : Byte := (s.mem.lookup a).getD (Config.powerOnByte s.epoch a)

/-- `PBUF[i]` (10_state.md R46). -/
def State.pbuf (s : State) (i : Nat) : Byte := s.memByte (pbufBase + i)

/-- `DBUF[i]` (10_state.md R46). -/
def State.dbuf (s : State) (i : Nat) : Byte := s.memByte (dbufBase + i)

/-- `CWBUF[i]` (10_state.md R46). -/
def State.cwbuf (s : State) (i : Nat) : Byte := s.memByte (cwbufBase + i)

/-- The state with consecutive buffer bytes stored from a host address on. -/
def State.store (s : State) (base : Nat) (bs : List Byte) : State := { s with mem := s.mem.store base bs }

/-! ## The module grid -/

/-- The index of cell (r, c) in a plane. -/
def cellIndex (r c : Nat) : Nat := gridSide * r + c

/-- (r, c) is a cell of the grid (10_state.md R48); every other (r, c) is a phantom cell (20_memory.md R68). -/
def inGrid (r c : Nat) : Bool := decide (r < gridSide ∧ c < gridSide)

/-- One assignment to a plane: row, column, value. -/
abbrev Draw := Nat × Nat × Bool

/-- A cell of a plane: what was written there, or its free power-on value. A phantom cell reads 0. -/
def Plane.cell (p : Plane) (free : Nat → Bool) (r c : Nat) : Bool :=
  if inGrid r c then
    if p.known.testBit (cellIndex r c) then p.bits.testBit (cellIndex r c) else free (cellIndex r c)
  else false

/-- A plane with one cell written; a write to a phantom cell is ignored. -/
def Plane.set (p : Plane) (r c : Nat) (v : Bool) : Plane :=
  if inGrid r c then
    { known := p.known ||| 2 ^ cellIndex r c
      bits := if v then p.bits ||| 2 ^ cellIndex r c else (p.bits ||| 2 ^ cellIndex r c) ^^^ 2 ^ cellIndex r c }
  else p

/-- A plane with a list of assignments made in order. -/
def Plane.draw (p : Plane) (ds : List Draw) : Plane := ds.foldl (fun q d => q.set d.1 d.2.1 d.2.2) p

/-- The plane with every cell written 0. -/
def Plane.blank : Plane := { known := 2 ^ gridCells - 1, bits := 0 }

/-- The canonical form: only cells of the grid are known and only known cells hold a 1, so planes that hold
the same are the same data. -/
def Plane.wf (p : Plane) : Bool := decide (p.known < 2 ^ gridCells) && p.bits ||| p.known == p.known

/-- `MOD[r][c]`, true for Dark (10_state.md R48). -/
def State.modAt (s : State) (r c : Nat) : Bool := s.mod.cell (Config.powerOnMod s.epoch) r c

/-- `RES[r][c]`, true for reserved (10_state.md R48). -/
def State.resAt (s : State) (r c : Nat) : Bool := s.res.cell (Config.powerOnRes s.epoch) r c

/-- The state with assignments made to MOD. -/
def State.drawMod (s : State) (ds : List Draw) : State := { s with mod := s.mod.draw ds }

/-- The cells (i, j) with i and j below `n`, row by row. -/
def squareCells (n : Nat) : List (Nat × Nat) :=
  (List.range n).flatMap fun i => (List.range n).map fun j => (i, j)

/-! ## The end of a command -/

/-- Completion without an error (60_exceptions.md R304). -/
def completeOk (s : State) : State := { s with pending := none, status := s.status.completedOk }

/-- Completion with an error raised by opcode `op` (60_exceptions.md R303): the only thing that changes
besides csr.STATUS is that the latch is emptied. It stands where a processor takes an exception; nothing
is saved and no control passes anywhere (R300, R310). -/
def completeError (e : CmdError) (op : BitVec 8) (s : State) : State :=
  { s with pending := none, status := s.status.completedError e op }

/-- The host's acknowledge, the end of an error's life (60_exceptions.md R309; 10_state.md R26). -/
def acknowledge (s : State) : State := { s with status := s.status.cleared }

/-- The end of a command's step: a raised error leaves the state it started from (00_scope.md R12;
60_exceptions.md R305), otherwise the command's writes are completed (R304). -/
def finish (op : BitVec 8) (s : State) : Except CmdError State → Host.Outcome State Fault Refusal
  | .error e => .next (completeError e op s)
  | .ok t => .next (completeOk t)

/-- A command's pseudocode: its first failing check raises the error, else its writes are made
(60_exceptions.md R302, R305: every check comes before the first write). -/
def guarded (check : State → Option CmdError) (writes : State → State) (s : State) : Except CmdError State :=
  match check s with
  | some e => .error e
  | none => .ok (writes s)

end Sys2Proof.Machine
end

