-- ==== Sys2Proof/Machine/Bus.lean ====
section
/-!
DEFINITION. Sys2Proof/Machine/Bus.lean: the host's side (20_memory.md): the address map, reads and writes of
control registers, buffers, ROM and the GRID window, the issue of a command, soft and hardware reset.
-/

namespace Sys2Proof.Machine

/-! ## The address map (20_memory.md R61) -/

/-- The regions of the address map (20_memory.md R61). ROM is EXP, LOG and GEN. -/
inductive Region where
  | csr
  | buffer
  | rom
  | grid
  | unmapped
deriving DecidableEq, Repr

/-- The region of a byte address (20_memory.md R61). -/
def regionOf (a : Nat) : Region :=
  if a < 0x00100 then .csr
  else if a < 0x02000 then .unmapped
  else if a < 0x06000 then .buffer
  else if a < 0x06600 then .rom
  else if a < 0x10000 then .unmapped
  else if a < 0x20000 then .grid
  else .unmapped

/-- The word address `a − (a mod 4)` of an access (20_memory.md R65). -/
def wordBase (a : HostAddr) : Nat := a.toNat - a.toNat % 4

/-- The system address of an offset of the window (20_memory.md R60; log 10). -/
def systemAddress (a : HostAddr) : Nat := Config.qrcBase + a.toNat

/-- The control registers (10_state.md R21). -/
inductive Csr where
  | id
  | cmd
  | status
  | ctrl
  | config
  | plen
  | stage
  | segbits
  | modeused
  | maskid
  | score
  | dim
  | ndcw
  | ncw
  | gfres
  | arg0
  | arg1
  | arg2
  | arg3
  | mscore (m : Fin 8)
deriving DecidableEq, Repr

/-- The register at an offset; none for a reserved offset (10_state.md R21). -/
def csrAt (off : Nat) : Option Csr :=
  match off with
  | 0x00 => some .id
  | 0x04 => some .cmd
  | 0x08 => some .status
  | 0x0C => some .ctrl
  | 0x10 => some .config
  | 0x14 => some .plen
  | 0x18 => some .stage
  | 0x1C => some .segbits
  | 0x20 => some .modeused
  | 0x24 => some .maskid
  | 0x28 => some .score
  | 0x2C => some .dim
  | 0x30 => some .ndcw
  | 0x34 => some .ncw
  | 0x38 => some .gfres
  | 0x40 => some .arg0
  | 0x44 => some .arg1
  | 0x48 => some .arg2
  | 0x4C => some .arg3
  | 0x60 => some (.mscore 0)
  | 0x64 => some (.mscore 1)
  | 0x68 => some (.mscore 2)
  | 0x6C => some (.mscore 3)
  | 0x70 => some (.mscore 4)
  | 0x74 => some (.mscore 5)
  | 0x78 => some (.mscore 6)
  | 0x7C => some (.mscore 7)
  | _ => none

/-! ## Reads -/

/-- The word a register reads (10_state.md R22-R44). -/
def csrRead (k : Csr) (s : State) : Word :=
  match k with
  | .id => 0x51524331#32
  | .cmd => s.cmd
  | .status => s.statusWord
  | .ctrl => s.ctrlWord
  | .config => s.config.toWord
  | .plen => s.plen.setWidth 32
  | .stage => s.stage.toWord
  | .segbits => s.segbits.setWidth 32
  | .modeused => s.modeused.setWidth 32
  | .maskid => s.maskid.toWord
  | .score => s.score
  | .dim => BitVec.ofNat 32 s.config.dimRegister
  | .ndcw => s.ndcw.setWidth 32
  | .ncw => s.ncw.setWidth 32
  | .gfres => s.gfres.setWidth 32
  | .arg0 => s.arg0
  | .arg1 => s.arg1
  | .arg2 => s.arg2
  | .arg3 => s.arg3
  | .mscore m => s.mscore.get m.val

/-- The byte of the EXP, LOG or GEN region at an address (20_memory.md R61, R79). -/
def romByte (a : Nat) : Byte :=
  if a < 0x06100 then expRom (a - 0x06000)
  else if a < 0x06200 then logRom (a - 0x06100)
  else genRom ((a - 0x06200) / 32) ((a - 0x06200) % 32)

/-- The row of a GRID address (20_memory.md R68). -/
def gridRow (a : Nat) : Nat := (a - 0x10000) / 256

/-- The column of a GRID address (20_memory.md R68). -/
def gridCol (a : Nat) : Nat := (a - 0x10000) % 256

/-- The cell byte `{0b000000, RES, MOD}`; a phantom cell reads 0 (20_memory.md R68). -/
def State.gridByte (s : State) (a : Nat) : Byte :=
  0#6 ++ BitVec.ofBool (s.resAt (gridRow a) (gridCol a)) ++ BitVec.ofBool (s.modAt (gridRow a) (gridCol a))

/-- The byte of storage at a host byte address, whatever BUSY is: buffers, ROM and GRID; 0 elsewhere
(20_memory.md R61, R66, R68, R79). Control registers are words and are not seen here. -/
def State.byteAt (s : State) (a : Nat) : Byte :=
  match regionOf a with
  | .csr => 0#8
  | .buffer => s.memByte a
  | .rom => romByte a
  | .grid => s.gridByte a
  | .unmapped => 0#8

/-- The little-endian word at a word address (20_memory.md R62). -/
def State.wordAt (s : State) (b : Nat) : Word :=
  s.byteAt (b + 3) ++ s.byteAt (b + 2) ++ s.byteAt (b + 1) ++ s.byteAt b

/-- The region is refused while BUSY = 1: buffers, ROM and GRID (10_state.md R28). -/
def Region.lockedWhenBusy : Region → Bool
  | .csr => false
  | .buffer => true
  | .rom => true
  | .grid => true
  | .unmapped => false

/-- The word a host read returns (20_memory.md R62-R69; 10_state.md R28, R45). -/
def State.readWord (s : State) (a : HostAddr) : Word :=
  let b := wordBase a
  match regionOf b with
  | .csr =>
    match csrAt b with
    | some k => csrRead k s
    | none => 0#32
  | .buffer => if s.busy then 0#32 else s.wordAt b
  | .rom => if s.busy then 0#32 else s.wordAt b
  | .grid => if s.busy then 0#32 else s.wordAt b
  | .unmapped => 0#32

/-- A host read: the word goes to `readData`; the only other effect is ACCERR for a region refused while
BUSY = 1 (10_state.md R28; 20_memory.md R66). -/
def hostRead (a : HostAddr) (s : State) : State :=
  let s1 := if s.busy && (regionOf (wordBase a)).lockedWhenBusy then s.accessError else s
  { s1 with readData := s.readWord a }

/-! ## Resets -/

/-- Soft reset (70_reset_and_hazards.md R344): the latch is emptied and every CSR put back; buffers and grid
stay. -/
def softReset (s : State) : State :=
  { State.reset with
    mem := s.mem
    mod := s.mod
    res := s.res
    epoch := s.epoch
    agenda := s.agenda
    readData := s.readData }

/-- Hardware reset (70_reset_and_hazards.md R340, R342): as after reset, buffers and grid holding new free
values (log 5). -/
def hardwareReset (s : State) : State :=
  { State.reset with
    epoch := s.epoch + 1
    agenda := s.agenda
    readData := s.readData }

/-! ## Writes -/

/-- A command word accepted while BUSY = 0 (10_state.md R23). -/
def acceptCommand (w : Word) (s : State) : State :=
  { s with cmd := w, pending := some w, status := s.status.cleared }

/-- A write of csr.CMD: dropped with ACCERR while BUSY = 1 (10_state.md R23). -/
def writeCmd (w : Word) (s : State) : State := if s.busy then s.accessError else acceptCommand w s

/-- A write of csr.CTRL, taken also while BUSY = 1 (10_state.md R30). -/
def writeCtrl (w : Word) (s : State) : State :=
  if w.getLsbD 31 then softReset s else { s with irqEn := w.getLsbD 0 }

/-- The effect of a write to a read-write register while BUSY = 0; every other register is read-only and
the write an access error (10_state.md R21, R28). -/
def csrStore (k : Csr) (w : Word) (s : State) : State :=
  match k with
  | .config => { s with config := SymbolConfig.ofWord w, stage := Stage.none }
  | .plen => { s with plen := w.extractLsb' 0 16 }
  | .stage => { s with stage := Stage.ofWord w }
  | .maskid => { s with maskid := MaskId.ofWord w }
  | .arg0 => { s with arg0 := w }
  | .arg1 => { s with arg1 := w }
  | .arg2 => { s with arg2 := w }
  | .arg3 => { s with arg3 := w }
  | .id | .cmd | .status | .ctrl | .segbits | .modeused | .score | .dim | .ndcw | .ncw | .gfres | .mscore _ =>
    s.accessError

/-- A host write to a register: CMD, STATUS and CTRL by their own rules; every other register only while
BUSY = 0 (10_state.md R28; 20_memory.md R69). -/
def csrWrite (k : Csr) (w : Word) (s : State) : State :=
  match k with
  | .cmd => writeCmd w s
  | .status => { s with status := s.status.hostWrite w }
  | .ctrl => writeCtrl w s
  | .id | .config | .plen | .stage | .segbits | .modeused | .maskid | .score | .dim | .ndcw | .ncw | .gfres
  | .arg0 | .arg1 | .arg2 | .arg3 | .mscore _ =>
    if s.busy then s.accessError else csrStore k w s

/-- The four bytes of a word, the lowest address first (20_memory.md R62). -/
def wordBytes (w : Word) : List Byte :=
  [w.extractLsb' 0 8, w.extractLsb' 8 8, w.extractLsb' 16 8, w.extractLsb' 24 8]

/-- The assignments of a GRID word write to one plane, `bit` being the plane's bit of a cell byte
(20_memory.md R68). -/
def gridWordDraws (b : Nat) (w : Word) (bit : Nat) : List Draw :=
  (wordBytes w).zipIdx.map fun p => (gridRow (b + p.2), gridCol (b + p.2), p.1.getLsbD bit)

/-- A GRID word write: every real cell takes both bits, phantom cells ignore theirs (20_memory.md R67, R68). -/
def gridStore (b : Nat) (w : Word) (s : State) : State :=
  { s with mod := s.mod.draw (gridWordDraws b w 0), res := s.res.draw (gridWordDraws b w 1) }

/-- A host write (20_memory.md R62-R69; 10_state.md R28, R45). -/
def hostWrite (a : HostAddr) (w : Word) (s : State) : State :=
  let b := wordBase a
  match regionOf b with
  | .csr =>
    match csrAt b with
    | some k => csrWrite k w s
    | none => s.accessError
  | .buffer => if s.busy then s.accessError else s.store b (wordBytes w)
  | .rom => s.accessError
  | .grid => if s.busy then s.accessError else gridStore b w s
  | .unmapped => s.accessError

/-- One host access (20_memory.md R64). -/
def hostAccess (acc : Access) (s : State) : State :=
  match acc with
  | .read a => hostRead a s
  | .write a w => hostWrite a w s

end Sys2Proof.Machine
end

