-- ==== Sys2Proof/Syntax.lean ====
section
/-!
DEFINITION. Sys2Proof/Syntax.lean: the commands of QRC, one constructor for each row of
spec/opcode_table.json (30_encoding.md R104). Larger operands are in control registers (R103).
-/

namespace Sys2Proof

/-- The twelve commands (30_encoding.md R104, R105). Only MASKAPPLY and MASKSCORE have an operand in the
word: the pattern id p of IMM, three bits used unsigned (R102). -/
inductive Instr where
  | nop
  | pack
  | gfmul
  | rsenc
  | eccgen
  | reserve
  | fill
  | maskapply (p : BitVec 3)
  | maskscore (p : BitVec 3)
  | masksel
  | format
  | encode
deriving DecidableEq, Repr

end Sys2Proof
end

