-- ==== Sys2Proof/WellFormed.lean ====
section
/-!
DEFINITION. Sys2Proof/WellFormed.lean: which 32-bit command words are well formed (30_encoding.md R100,
R106, R107). A term of `Instr` needs no check of its own: its only operand is three bits wide, so every
term has an encoding. The checks are on the word, where an ill-formed term can be written.
-/

namespace Sys2Proof

/-- The OP field, bits 7:0 (30_encoding.md R100). -/
def CommandWord.op (w : Word) : BitVec 8 := w.extractLsb' 0 8

/-- The IMM field, bits 10:8 (R100). -/
def CommandWord.imm (w : Word) : BitVec 3 := w.extractLsb' 8 3

/-- The RSV field, bits 31:11 (R100). -/
def CommandWord.rsv (w : Word) : BitVec 21 := w.extractLsb' 11 21

/-- The opcodes of the map of R104; the other 244 values are illegal (R107). -/
def knownOpcodes : List (BitVec 8) :=
  [0x00#8, 0x10#8, 0x20#8, 0x21#8, 0x22#8, 0x30#8, 0x31#8, 0x40#8, 0x41#8, 0x42#8, 0x50#8, 0x60#8]

/-- The opcodes that take an immediate (R106). -/
def immediateOpcodes : List (BitVec 8) := [0x40#8, 0x41#8]

/-- Check 1 of R106: the opcode is in the map. -/
def CommandWord.opKnown (w : Word) : Bool := knownOpcodes.contains (CommandWord.op w)

/-- Check 2 of R106: the reserved field is 0. -/
def CommandWord.rsvZero (w : Word) : Bool := CommandWord.rsv w == 0#21

/-- Check 3 of R106: a command without an immediate has IMM = 0. -/
def CommandWord.immAllowed (w : Word) : Bool :=
  immediateOpcodes.contains (CommandWord.op w) || CommandWord.imm w == 0#3

/-- A well-formed command word passes the three checks of R106. -/
def CommandWord.wellFormed (w : Word) : Bool :=
  CommandWord.opKnown w && CommandWord.rsvZero w && CommandWord.immAllowed w

end Sys2Proof
end

