-- ==== Sys2Proof/Decode.lean ====
section
/-!
DEFINITION. Sys2Proof/Decode.lean: the decoder of 30_encoding.md R106, total on every 32-bit word, each
rejection under a name of its own, and the encoder of R114.
-/

namespace Sys2Proof

/-- Why a word is no command. Each of them raises ILLEGAL_COMMAND at execution (30_encoding.md R106, R107). -/
inductive DecodeError where
  /-- The OP field is not in the map of R104. -/
  | unknownOpcode (op : BitVec 8)
  /-- The RSV field is not 0. -/
  | reservedBitsSet (op : BitVec 8)
  /-- IMM is not 0 on a command without an immediate. -/
  | unexpectedImmediate (op : BitVec 8)
deriving DecidableEq, Repr

/-- The OP field of a command word, bits 7:0 (30_encoding.md R100). -/
def opField (w : Word) : BitVec 8 := w.extractLsb' 0 8

/-- The IMM field, bits 10:8 (R100). -/
def immField (w : Word) : BitVec 3 := w.extractLsb' 8 3

/-- The RSV field, bits 31:11 (R100). -/
def rsvField (w : Word) : BitVec 21 := w.extractLsb' 11 21

/-- The command an opcode of R104 selects, p being the IMM field. -/
def commandOf (op : BitVec 8) (p : BitVec 3) : Option Instr :=
  match op with
  | 0x00#8 => some .nop
  | 0x10#8 => some .pack
  | 0x20#8 => some .gfmul
  | 0x21#8 => some .rsenc
  | 0x22#8 => some .eccgen
  | 0x30#8 => some .reserve
  | 0x31#8 => some .fill
  | 0x40#8 => some (.maskapply p)
  | 0x41#8 => some (.maskscore p)
  | 0x42#8 => some .masksel
  | 0x50#8 => some .format
  | 0x60#8 => some .encode
  | _ => none

/-- `decode(w)` of 30_encoding.md R106, its three checks in the order written there. -/
def decode (w : Word) : Except DecodeError Instr :=
  let op := opField w
  match commandOf op (immField w) with
  | none => .error (.unknownOpcode op)
  | some i =>
    if rsvField w ≠ 0#21 then .error (.reservedBitsSet op)
    else if op ≠ 0x40#8 ∧ op ≠ 0x41#8 ∧ immField w ≠ 0#3 then .error (.unexpectedImmediate op)
    else .ok i

/-- The opcode of a command (30_encoding.md R104). -/
def Instr.opcode : Instr → BitVec 8
  | .nop => 0x00#8
  | .pack => 0x10#8
  | .gfmul => 0x20#8
  | .rsenc => 0x21#8
  | .eccgen => 0x22#8
  | .reserve => 0x30#8
  | .fill => 0x31#8
  | .maskapply _ => 0x40#8
  | .maskscore _ => 0x41#8
  | .masksel => 0x42#8
  | .format => 0x50#8
  | .encode => 0x60#8

/-- The IMM field of a command: the pattern id, or 0 (30_encoding.md R104). -/
def Instr.immediate : Instr → BitVec 3
  | .maskapply p => p
  | .maskscore p => p
  | .nop | .pack | .gfmul | .rsenc | .eccgen | .reserve | .fill | .masksel | .format | .encode => 0#3

/-- The command word `zext_32({IMM, OP})` of a command (30_encoding.md R114). -/
def encode (i : Instr) : Word := 0#21 ++ i.immediate ++ i.opcode

/-- The command word given as a number of `nbits` bits; the bits above are 0. Every command is one 32-bit
word (30_encoding.md R111). -/
def tableWord (nbits w : Nat) : Word := BitVec.ofNat 32 (w % 2 ^ nbits)

/-- What the decoder reads from the bits of a row of spec/opcode_table.json. -/
def decodeTableWord (nbits w : Nat) : Option Instr :=
  match decode (tableWord nbits w) with
  | .ok i => some i
  | .error _ => none

end Sys2Proof
end

