-- ==== Sys2Proof/Machine/Field.lean ====
section
/-!
DEFINITION. Sys2Proof/Machine/Field.lean: GF(256) and the Reed–Solomon encoder (40_gf_rs.md): GFMUL, RSENC,
ECCGEN.
-/

namespace Sys2Proof.Machine

/-- `gfmul(a, b)` in the field of `GF_POLY` (40_gf_rs.md R132). -/
def gfmul (a b : Byte) : Byte := Config.params.gfmul a b

/-- The coefficients GEN[n][1..n] (40_gf_rs.md R134). -/
def genTail (n : Nat) : List Byte := (Config.params.genPoly n).drop 1

/-- One round of `rsRemainder`: one data byte into the remainder (40_gf_rs.md R137). -/
def rsRound (gen : List Byte) (rem : List Byte) (d : Byte) : List Byte :=
  let f := d ^^^ rem.headD 0#8
  List.zipWith (fun r g => r ^^^ gfmul g f) (rem.drop 1 ++ [0#8]) gen

/-- `rsRemainder(D, n)` (40_gf_rs.md R137). -/
def rsRemainder (data : List Byte) (n : Nat) : List Byte :=
  data.foldl (rsRound (genTail n)) (List.replicate n 0#8)

/-! ## GFMUL -/

/-- GFMUL (40_gf_rs.md R135). -/
def gfmulWrites (s : State) : State := { s with gfres := gfmul s.gfA s.gfB }

/-- GFMUL's core step (40_gf_rs.md R135). -/
def execGfmul (s : State) : Host.Outcome State Fault Refusal := finish 0x20#8 s (.ok (gfmulWrites s))

/-! ## RSENC -/

/-- RSENC's checks, in the order written (40_gf_rs.md R136). -/
def rsencCheck (s : State) : Option CmdError :=
  if s.arg2.toNat < 1 ∨ Config.params.genMax < s.arg2.toNat then some .badArgument
  else if 4096 < s.arg0.toNat + s.arg1.toNat then some .badArgument
  else if 4096 < s.arg3.toNat + s.arg2.toNat then some .badArgument
  else none

/-- The data block of RSENC, DBUF[s..s+k−1] (40_gf_rs.md R136). -/
def rsencData (s : State) : List Byte := (List.range s.arg1.toNat).map fun j => s.dbuf (s.arg0.toNat + j)

/-- RSENC's writes: the remainder to CWBUF[d..d+n−1] (40_gf_rs.md R136). -/
def rsencWrites (s : State) : State :=
  s.store (cwbufBase + s.arg3.toNat) (rsRemainder (rsencData s) s.arg2.toNat)

/-- RSENC's core step (40_gf_rs.md R136). -/
def execRsenc (s : State) : Host.Outcome State Fault Refusal :=
  finish 0x21#8 s (guarded rsencCheck rsencWrites s)

/-! ## ECCGEN -/

/-- The (total, data) shape of every block, in block order (40_gf_rs.md R138). -/
def blockShapes (gs : List Group) : List (Nat × Nat) :=
  gs.flatMap fun g => List.replicate g.count (g.total, g.data)

/-- `splitBlocks` (40_gf_rs.md R138): each block's data and error words. -/
def splitBlocks : List (Nat × Nat) → List Byte → List (List Byte × List Byte)
  | [], _ => []
  | (total, data) :: rest, l =>
    (l.take data, rsRemainder (l.take data) (total - data)) :: splitBlocks rest (l.drop data)

/-- `interleave` (40_gf_rs.md R139): byte j of every list that has one, for j = 0, 1, …. -/
def interleave (lists : List (List Byte)) : List Byte :=
  (List.range ((lists.map List.length).foldl max 0)).flatMap fun j => lists.filterMap fun l => l[j]?

/-- `finalSequence` (40_gf_rs.md R139). -/
def finalSequence (blocks : List (List Byte × List Byte)) : List Byte :=
  interleave (blocks.map Prod.fst) ++ interleave (blocks.map Prod.snd)

/-- The data codewords ECCGEN reads, the last one masked with 0xF0 in a nibble-short symbol
(40_gf_rs.md R140, R141). -/
def eccData (s : State) : List Byte :=
  (List.range s.config.nData).map fun i =>
    if s.config.nibbleShort && i == s.config.nData - 1 then s.dbuf i &&& 0xF0#8 else s.dbuf i

/-- The final codeword sequence of the data codewords in DBUF (40_gf_rs.md R140). -/
def eccSequence (s : State) : List Byte := finalSequence (splitBlocks (blockShapes s.config.groups) (eccData s))

/-- ECCGEN's checks (40_gf_rs.md R140). -/
def eccgenCheck (s : State) : Option CmdError :=
  match s.config.check with
  | some e => some e
  | none => if s.stage.p = false then some .sequence else none

/-- ECCGEN's writes (40_gf_rs.md R140). -/
def eccgenWrites (s : State) : State :=
  { s.store cwbufBase (eccSequence s) with
    ncw := BitVec.ofNat 16 s.config.nTotal
    stage := s.stage.afterEccgen }

/-- ECCGEN's pseudocode (40_gf_rs.md R140). -/
def eccgenRun (s : State) : Except CmdError State := guarded eccgenCheck eccgenWrites s

/-- ECCGEN's core step (40_gf_rs.md R140). -/
def execEccgen (s : State) : Host.Outcome State Fault Refusal := finish 0x22#8 s (eccgenRun s)

end Sys2Proof.Machine
end

