-- ==== Sys2Proof/Machine/Mask.lean ====
section
/-!
DEFINITION. Sys2Proof/Machine/Mask.lean: the mask penalty evaluator and selector (43_mask.md): MASKAPPLY,
MASKSCORE, MASKSEL.
-/

namespace Sys2Proof.Machine

/-! ## Patterns -/

/-- The mask predicate `mask(id, i, j)`, i the row and j the column (43_mask.md R240). The ids are 0..7, the
values of a three-bit field; the last arm is id 7. -/
def maskPredicate (p : Nat) (i j : Nat) : Bool :=
  match p with
  | 0 => (i + j) % 2 == 0
  | 1 => i % 2 == 0
  | 2 => j % 3 == 0
  | 3 => (i + j) % 3 == 0
  | 4 => (i / 2 + j / 3) % 2 == 0
  | 5 => (i * j) % 2 + (i * j) % 3 == 0
  | 6 => ((i * j) % 2 + (i * j) % 3) % 2 == 0
  | _ => ((i + j) % 2 + (i * j) % 3) % 2 == 0

/-- The candidates in enumeration order (43_mask.md R241). -/
def candidates (micro : Bool) : List Nat := if micro then [1, 4, 6, 7] else [0, 1, 2, 3, 4, 5, 6, 7]

/-- The alternate id of a Micro candidate (43_mask.md R241). -/
def altId (p : Nat) : Nat :=
  match p with
  | 1 => 0
  | 4 => 1
  | 6 => 2
  | 7 => 3
  | _ => 0

/-- The assignments of `applyMask(p)`: every free cell where the predicate holds is toggled (43_mask.md R242). -/
def maskDraws (p : Nat) (s : State) : List Draw :=
  ((squareCells s.config.dim).filter fun rc => !s.resAt rc.1 rc.2 && maskPredicate p rc.1 rc.2).map
    fun rc => (rc.1, rc.2, !s.modAt rc.1 rc.2)

/-- `applyMask(p)` (43_mask.md R242). -/
def applyMask (p : Nat) (s : State) : State := s.drawMod (maskDraws p s)

/-! ## Scoring -/

/-- M: the symbol's modules, row by row, true for Dark (43_mask.md section 2). -/
def symbolRows (s : State) : List (List Bool) :=
  (List.range s.config.dim).map fun i => (List.range s.config.dim).map fun j => s.modAt i j

/-- The columns of a matrix of `n` columns, top to bottom. -/
def columnsOf (n : Nat) (rows : List (List Bool)) : List (List Bool) :=
  (List.range n).map fun j => rows.map fun row => row.getD j false

/-- The lengths of the maximal runs, `n` modules of value `b` having been seen in the present one
(43_mask.md R243). -/
def runLengthsFrom (b : Bool) (n : Nat) : List Bool → List Nat
  | [] => [n]
  | x :: xs => if x = b then runLengthsFrom b (n + 1) xs else n :: runLengthsFrom x 1 xs

/-- The lengths of the maximal runs of equal modules of a line (43_mask.md R243). -/
def runLengths : List Bool → List Nat
  | [] => []
  | x :: xs => runLengthsFrom x 1 xs

/-- N1 of one line: every run of length ℓ ≥ 5 adds ℓ − 2 (43_mask.md R243). -/
def lineN1 (line : List Bool) : Nat :=
  ((runLengths line).map fun len => if 5 ≤ len then len - 2 else 0).sum

/-- N1 over the lines of the symbol (43_mask.md R243). -/
def penaltyN1 (lines : List (List Bool)) : Nat := (lines.map lineN1).sum

/-- The 2×2 blocks of four equal modules in two neighbouring rows (43_mask.md R244). -/
def equalBlocks : List Bool → List Bool → Nat
  | a :: b :: top, c :: d :: bottom =>
    (if a = b ∧ a = c ∧ a = d then 1 else 0) + equalBlocks (b :: top) (d :: bottom)
  | _, _ => 0

/-- The 2×2 blocks of four equal modules (43_mask.md R244). -/
def countBlocks : List (List Bool) → Nat
  | r1 :: r2 :: rows => equalBlocks r1 r2 + countBlocks (r2 :: rows)
  | _ => 0

/-- N2 (43_mask.md R244). -/
def penaltyN2 (rows : List (List Bool)) : Nat := 3 * countBlocks rows

/-- Sequence A, 1 0 1 1 1 0 1 0 0 0 0 (43_mask.md R245). -/
def finderLikeA : List Bool := [true, false, true, true, true, false, true, false, false, false, false]

/-- Sequence B, A reversed (43_mask.md R245). -/
def finderLikeB : List Bool := [false, false, false, false, true, false, true, true, true, false, true]

/-- The windows of a line that match A or B; windows lie wholly inside the line (43_mask.md R245). -/
def lineFinderLike : List Bool → Nat
  | [] => 0
  | x :: xs =>
    (if finderLikeA.isPrefixOf (x :: xs) then 1 else 0) + (if finderLikeB.isPrefixOf (x :: xs) then 1 else 0)
      + lineFinderLike xs

/-- N3 over the lines of the symbol (43_mask.md R245). -/
def penaltyN3 (lines : List (List Bool)) : Nat := 40 * (lines.map lineFinderLike).sum

/-- d, the number of Dark modules (43_mask.md R246). -/
def darkCount (rows : List (List Bool)) : Nat := (rows.map fun row => row.countP id).sum

/-- N4 for d Dark modules in a symbol of side dim: 10 · ⌊|20 d − 10 T| / T⌋, T = dim² (43_mask.md R246). -/
def penaltyN4 (dim d : Nat) : Nat :=
  10 * (((20 * d - 10 * (dim * dim)) + (10 * (dim * dim) - 20 * d)) / (dim * dim))

/-- `penalty()`, the Normal score of a symbol of side dim with the given rows (43_mask.md R247). -/
def penalty (dim : Nat) (rows : List (List Bool)) : Nat :=
  let lines := rows ++ columnsOf dim rows
  penaltyN1 lines + penaltyN2 rows + penaltyN3 lines + penaltyN4 dim (darkCount rows)

/-- `microScore()` (43_mask.md R248): the whole rightmost column and the whole bottom row. -/
def microScore (dim : Nat) (rows : List (List Bool)) : Nat :=
  let rc := (rows.map fun row => row.getD (dim - 1) false).countP id
  let bc := (rows.getD (dim - 1) []).countP id
  16 * min rc bc + max rc bc

/-- The score of the grid as it stands (43_mask.md R249). -/
def scoreGrid (s : State) : Nat :=
  if s.config.micro then microScore s.config.dim (symbolRows s) else penalty s.config.dim (symbolRows s)

/-- `score(p)` (43_mask.md R249): the score of the grid with pattern p applied. The masked grid is a copy,
so there is nothing to undo (log 15). -/
def score (p : Nat) (s : State) : Nat := scoreGrid (applyMask p s)

/-! ## MASKAPPLY and MASKSCORE -/

/-- The checks of MASKAPPLY and MASKSCORE (43_mask.md R250, R251). -/
def maskCheck (p : Nat) (s : State) : Option CmdError :=
  match s.config.check with
  | some e => some e
  | none =>
    if s.stage.r = false then some .sequence
    else if s.config.micro = true ∧ p ∉ candidates true then some .badArgument
    else none

/-- MASKAPPLY's core step (43_mask.md R250). -/
def execMaskapply (p : BitVec 3) (s : State) : Host.Outcome State Fault Refusal :=
  finish 0x40#8 s (guarded (maskCheck p.toNat) (applyMask p.toNat) s)

/-- MASKSCORE's writes (43_mask.md R251). -/
def maskscoreWrites (p : Nat) (s : State) : State := { s with score := BitVec.ofNat 32 (score p s) }

/-- MASKSCORE's core step (43_mask.md R251). -/
def execMaskscore (p : BitVec 3) (s : State) : Host.Outcome State Fault Refusal :=
  finish 0x41#8 s (guarded (maskCheck p.toNat) (maskscoreWrites p.toNat) s)

/-! ## MASKSEL -/

/-- A candidate scored `new` takes the place of the best so far: strictly lower for Normal, strictly higher
for Micro, so the first wins ties (43_mask.md R252). -/
def beats (micro : Bool) (new best : Nat) : Bool := if micro then decide (best < new) else decide (new < best)

/-- The selection loop over the scored candidates that are left (43_mask.md R252). -/
def selectFrom (micro : Bool) : Nat × Nat → List (Nat × Nat) → Nat × Nat
  | best, [] => best
  | best, c :: cs => selectFrom micro (if beats micro c.2 best.2 then c else best) cs

/-- The scored candidates (id, score), in enumeration order (43_mask.md R252). -/
def scoredCandidates (s : State) : List (Nat × Nat) :=
  (candidates s.config.micro).map fun p => (p, score p s)

/-- The winning candidate and its score (43_mask.md R252). -/
def bestCandidate (s : State) : Nat × Nat :=
  match scoredCandidates s with
  | [] => (0, 0)
  | c :: cs => selectFrom s.config.micro c cs

/-- MASKSEL's checks (43_mask.md R252). -/
def maskselCheck (s : State) : Option CmdError :=
  match s.config.check with
  | some e => some e
  | none => if s.stage.r = false ∨ s.stage.f = false ∨ s.stage.m = true then some .sequence else none

/-- MASKSEL's writes (43_mask.md R252). -/
def maskselWrites (s : State) : State :=
  let scored := scoredCandidates s
  let best := bestCandidate s
  { applyMask best.1 s with
    maskid :=
      { pattern := BitVec.ofNat 3 best.1
        alt := BitVec.ofNat 2 (if s.config.micro then altId best.1 else 0) }
    score := BitVec.ofNat 32 best.2
    mscore := MScores.ofFn fun m => BitVec.ofNat 32 ((scored.lookup m).getD 0)
    stage := s.stage.afterMasksel }

/-- MASKSEL's pseudocode (43_mask.md R252). -/
def maskselRun (s : State) : Except CmdError State := guarded maskselCheck maskselWrites s

/-- MASKSEL's core step (43_mask.md R252). -/
def execMasksel (s : State) : Host.Outcome State Fault Refusal := finish 0x42#8 s (maskselRun s)

end Sys2Proof.Machine
end

