-- ==== Sys2Proof/Machine/Matrix.lean ====
section
/-!
DEFINITION. Sys2Proof/Machine/Matrix.lean: the function-pattern drawer and the zig-zag traversal engine
(42_matrix.md): RESERVE, FILL.
-/

namespace Sys2Proof.Machine

/-! ## Geometry (42_matrix.md R200-R208) -/

/-- The distance |a − b| of two coordinates. -/
def gap (a b : Nat) : Nat := (a - b) + (b - a)

/-- `drawAlign(r, c)`: the 5×5 pattern centred on (r, c), r and c at least 2 (42_matrix.md R201). -/
def alignDraws (r c : Nat) : List Draw :=
  (squareCells 5).map fun d => (r - 2 + d.1, c - 2 + d.2, !(max (gap d.1 2) (gap d.2 2) == 1))

/-- The zone [a1, a2] × [b1, b2] meets the 5×5 footprint centred on (r, c) (42_matrix.md R202). -/
def meetsZone (r c a1 a2 b1 b2 : Nat) : Bool :=
  decide (r ≤ a2 + 2 ∧ a1 ≤ r + 2 ∧ c ≤ b2 + 2 ∧ b1 ≤ c + 2)

/-- `overlapsZone(r, c)`: one of the three finder exclusion zones (42_matrix.md R202). -/
def overlapsZone (dim r c : Nat) : Bool :=
  meetsZone r c 0 9 0 9 || meetsZone r c 0 9 (dim - 10) (dim - 1) || meetsZone r c (dim - 10) (dim - 1) 0 9

/-- The alignment patterns of a Normal version, r in ALIGN order, then c (42_matrix.md R202, R209). -/
def alignmentDraws (ver dim : Nat) : List Draw :=
  (alignCentres ver).flatMap fun r =>
    (alignCentres ver).flatMap fun c => if overlapsZone dim r c then [] else alignDraws r c

/-- `drawFinder(r0, c0)`: the 7×7 pattern with top-left corner (r0, c0) (42_matrix.md R203). -/
def finderDraws (r0 c0 : Nat) : List Draw :=
  (squareCells 7).map fun d => (r0 + d.1, c0 + d.2, !(max (gap d.1 3) (gap d.2 3) == 2))

/-- `drawSeparator(r0, c0)`: the Light strip on the inner sides of a finder (42_matrix.md R204). -/
def separatorDraws (r0 c0 : Nat) : List Draw :=
  let sr := if r0 = 0 then 7 else r0 - 1
  let sc := if c0 = 0 then 7 else c0 - 1
  ((List.range 8).map fun k => (sr, if c0 = 0 then k else c0 - 1 + k, false))
    ++ (((List.range 8).map fun k => if r0 = 0 then k else r0 - 1 + k).filter fun rr => rr != sr).map
        fun rr => (rr, sc, false)

/-- `fmtCells(b)`: the cells that hold bit b of the format word (42_matrix.md R205). -/
def fmtCells (micro : Bool) (dim b : Nat) : List (Nat × Nat) :=
  if micro then
    if b ≤ 7 then [(8, b + 1)] else [(15 - b, 8)]
  else if b ≤ 5 then [(b, 8), (8, dim - 1 - b)]
  else if b = 6 then [(7, 8), (8, dim - 7)]
  else if b = 7 then [(8, 8), (8, dim - 8)]
  else if b = 8 then [(8, 7), (dim - 7, 8)]
  else [(8, 14 - b), (dim - 15 + b, 8)]

/-- The format cells, each with the bit of `word` it holds (42_matrix.md R205; 44_format_control.md R283). -/
def formatDraws (micro : Bool) (dim word : Nat) : List Draw :=
  (List.range 15).flatMap fun b => (fmtCells micro dim b).map fun rc => (rc.1, rc.2, word.testBit b)

/-- `verCells(b)`: the two cells that hold bit b of the version word (42_matrix.md R207). -/
def verCells (dim b : Nat) : List (Nat × Nat) :=
  [(b / 3, dim - 11 + b % 3), (dim - 11 + b % 3, b / 3)]

/-- The version cells of a Normal symbol of version 7 or above, each with the bit of `word` it holds; none
otherwise (42_matrix.md R207; 44_format_control.md R283). -/
def versionDraws (micro : Bool) (ver dim word : Nat) : List Draw :=
  if !micro && decide (7 ≤ ver) then
    (List.range 18).flatMap fun b => (verCells dim b).map fun rc => (rc.1, rc.2, word.testBit b)
  else []

/-- The timing value of index k: Dark for even k (42_matrix.md R208). -/
def timingValue (k : Nat) : Bool := k % 2 == 0

/-- The horizontal timing line (42_matrix.md R208). -/
def timingRow (micro : Bool) (dim : Nat) : List Draw :=
  if micro then (List.range (dim - 8)).map fun k => (0, 8 + k, timingValue (8 + k))
  else (List.range (dim - 16)).map fun k => (6, 8 + k, timingValue (8 + k))

/-- The vertical timing line (42_matrix.md R208). -/
def timingColumn (micro : Bool) (dim : Nat) : List Draw :=
  if micro then (List.range (dim - 8)).map fun k => (8 + k, 0, timingValue (8 + k))
  else (List.range (dim - 16)).map fun k => (8 + k, 6, timingValue (8 + k))

/-! ## RESERVE -/

/-- Everything RESERVE draws before the timing lines, in order (42_matrix.md R209 steps 1 to 5, R211). -/
def patternDraws (c : SymbolConfig) : List Draw :=
  let dim := c.dim
  if c.micro then
    finderDraws 0 0 ++ separatorDraws 0 0 ++ formatDraws true dim 0
  else
    alignmentDraws c.ver dim
      ++ (finderDraws 0 0 ++ separatorDraws 0 0)
      ++ (finderDraws 0 (dim - 7) ++ separatorDraws 0 (dim - 7))
      ++ (finderDraws (dim - 7) 0 ++ separatorDraws (dim - 7) 0)
      ++ formatDraws false dim 0
      ++ [(dim - 8, 8, true)]
      ++ versionDraws false c.ver dim 0

/-- The assignments to RES that go with drawing cells (42_matrix.md R200). -/
def reserving (ds : List Draw) : List Draw := ds.map fun d => (d.1, d.2.1, true)

/-- The draws of a timing line that are made: `drawTiming` leaves a cell already reserved as it is
(42_matrix.md R208). The plane given is a cleared one with draws made, so every cell of it is known. -/
def timingDraws (reserved : Plane) (line : List Draw) : List Draw :=
  line.filter fun d => !reserved.cell (fun _ => false) d.1 d.2.1

/-- Every draw RESERVE makes, in order (42_matrix.md R209, R211). -/
def reserveDraws (c : SymbolConfig) : List Draw :=
  let ds := patternDraws c
  let row := timingDraws (Plane.blank.draw (reserving ds)) (timingRow c.micro c.dim)
  let col := timingDraws (Plane.blank.draw (reserving (ds ++ row))) (timingColumn c.micro c.dim)
  ds ++ row ++ col

/-- The MOD plane RESERVE leaves (42_matrix.md R211). -/
def reservedMod (c : SymbolConfig) : Plane := Plane.blank.draw (reserveDraws c)

/-- The RES plane RESERVE leaves (42_matrix.md R211). -/
def reservedRes (c : SymbolConfig) : Plane := Plane.blank.draw (reserving (reserveDraws c))

/-- RESERVE's checks (42_matrix.md R211). -/
def reserveCheck (s : State) : Option CmdError := s.config.check

/-- RESERVE's writes (42_matrix.md R211). -/
def reserveWrites (s : State) : State :=
  { s with mod := reservedMod s.config, res := reservedRes s.config, stage := s.stage.afterReserve }

/-- RESERVE's pseudocode (42_matrix.md R211). -/
def reserveRun (s : State) : Except CmdError State := guarded reserveCheck reserveWrites s

/-- RESERVE's core step (42_matrix.md R211). -/
def execReserve (s : State) : Host.Outcome State Fault Refusal := finish 0x30#8 s (reserveRun s)

/-! ## The zig-zag traversal -/

/-- One column pair, right column first, going up or down (42_matrix.md R212). -/
def columnPair (dim right : Nat) (up : Bool) : List (Nat × Nat) :=
  (List.range dim).flatMap fun k =>
    let r := if up then dim - 1 - k else k
    [(r, right), (r, right - 1)]

/-- The loop of `traversal()` (42_matrix.md R212), with `fuel` at least the number of column pairs. -/
def traverseFrom (micro : Bool) (dim : Nat) : Nat → Nat → Bool → List (Nat × Nat)
  | 0, _, _ => []
  | fuel + 1, right, up =>
    if 1 ≤ right then
      let right := if !micro && right == 6 then 5 else right
      columnPair dim right up ++ traverseFrom micro dim fuel (right - 2) (!up)
    else []

/-- `traversal()` (42_matrix.md R212). -/
def traversal (micro : Bool) (dim : Nat) : List (Nat × Nat) := traverseFrom micro dim dim (dim - 1) true

/-! ## FILL -/

/-- `finalBits()`: the bits of the codewords in CWBUF, the nibble-short one giving 4 (40_gf_rs.md R142). -/
def finalBits (s : State) : List Bool :=
  (List.range s.config.nTotal).flatMap fun i =>
    let w := if s.config.nibbleShort && i == s.config.nData - 1 then 4 else 8
    bits ((s.cwbuf i).toNat >>> (8 - w)) w

/-- The free cells in traversal order, each with its bit; cells after the last bit are Light
(42_matrix.md R213). -/
def placeBits : List (Nat × Nat) → List Bool → List Draw
  | [], _ => []
  | (r, c) :: cells, [] => (r, c, false) :: placeBits cells []
  | (r, c) :: cells, b :: bs => (r, c, b) :: placeBits cells bs

/-- The free cells of the symbol in traversal order (42_matrix.md R213). -/
def freeCells (s : State) : List (Nat × Nat) :=
  (traversal s.config.micro s.config.dim).filter fun rc => !s.resAt rc.1 rc.2

/-- FILL's checks (42_matrix.md R213). -/
def fillCheck (s : State) : Option CmdError :=
  match s.config.check with
  | some e => some e
  | none => if s.stage.e = false ∨ s.stage.r = false then some .sequence else none

/-- FILL's writes (42_matrix.md R213). -/
def fillWrites (s : State) : State :=
  { s.drawMod (placeBits (freeCells s) (finalBits s)) with stage := s.stage.afterFill }

/-- FILL's pseudocode (42_matrix.md R213). -/
def fillRun (s : State) : Except CmdError State := guarded fillCheck fillWrites s

/-- FILL's core step (42_matrix.md R213). -/
def execFill (s : State) : Host.Outcome State Fault Refusal := finish 0x31#8 s (fillRun s)

end Sys2Proof.Machine
end

