-- ==== Sys2Proof/Machine/Metadata.lean ====
section
/-!
DEFINITION. Sys2Proof/Machine/Metadata.lean: the metadata writer (44_format_control.md sections 1 and 2):
FORMAT.
-/

namespace Sys2Proof.Machine

/-- The format word of the symbol and of the current MASKID: ALT for Micro, PATTERN for Normal
(44_format_control.md R285). -/
def formatWord (s : State) : Nat :=
  match s.config.level with
  | some level =>
    if s.config.micro then fmtM s.config.ver level s.maskid.alt.toNat else fmtN level s.maskid.pattern.toNat
  | none => 0

/-- The assignments FORMAT makes (44_format_control.md R283, R285). -/
def metadataDraws (s : State) : List Draw :=
  formatDraws s.config.micro s.config.dim (formatWord s)
    ++ versionDraws s.config.micro s.config.ver s.config.dim (verInfo s.config.ver)

/-- FORMAT's checks (44_format_control.md R285). -/
def formatCheck (s : State) : Option CmdError :=
  match s.config.check with
  | some e => some e
  | none => if s.stage.r = false ∨ s.stage.m = false then some .sequence else none

/-- FORMAT's writes (44_format_control.md R285). -/
def formatWrites (s : State) : State := { s.drawMod (metadataDraws s) with stage := s.stage.afterFormat }

/-- FORMAT's pseudocode (44_format_control.md R285). -/
def formatRun (s : State) : Except CmdError State := guarded formatCheck formatWrites s

/-- FORMAT's core step (44_format_control.md R285). -/
def execFormat (s : State) : Host.Outcome State Fault Refusal := finish 0x50#8 s (formatRun s)

end Sys2Proof.Machine
end

