-- ==== Sys2Proof/Machine/Packer.lean ====
section
/-!
DEFINITION. Sys2Proof/Machine/Packer.lean: the bitstream packer and formatter (41_packer.md): PACK.
-/

namespace Sys2Proof.Machine

/-! ## Mode -/

/-- `isDigit` (41_packer.md R162). -/
def isDigit (b : Byte) : Bool := decide (0x30 ≤ b.toNat ∧ b.toNat ≤ 0x39)

/-- `isAlnum` (41_packer.md R162): one of the 45 bytes of 20_memory.md R88. -/
def isAlnum (b : Byte) : Bool := (alnum b).isSome

/-- `detectMode` (41_packer.md R162), the AUTO mode. -/
def detectMode (payload : List Byte) : Mode :=
  if payload.all isDigit then .numeric
  else if payload.all isAlnum then .alphanumeric
  else .byte

/-- `charsValid` (41_packer.md R164). -/
def charsValid (mode : Mode) (payload : List Byte) : Bool :=
  match mode with
  | .numeric => payload.all isDigit
  | .alphanumeric => payload.all isAlnum
  | .byte => true

/-! ## The segment -/

/-- The value of a digit, b − 0x30 (41_packer.md R169). -/
def digitValue (b : Byte) : Nat := b.toNat - 0x30

/-- Numeric payload bits: groups of three digits (41_packer.md R169). -/
def numericBits : List Byte → List Bool
  | [] => []
  | [a] => bits (digitValue a) 4
  | [a, b] => bits (10 * digitValue a + digitValue b) 7
  | a :: b :: c :: rest => bits (100 * digitValue a + 10 * digitValue b + digitValue c) 10 ++ numericBits rest

/-- The value of an AlphaNumeric character (20_memory.md R88). -/
def alnumValue (b : Byte) : Nat := (alnum b).getD 0

/-- AlphaNumeric payload bits: pairs of characters (41_packer.md R170). -/
def alnumBits : List Byte → List Bool
  | [] => []
  | [a] => bits (alnumValue a) 6
  | a :: b :: rest => bits (45 * alnumValue a + alnumValue b) 11 ++ alnumBits rest

/-- Byte payload bits (41_packer.md R171). -/
def byteBits (payload : List Byte) : List Bool := payload.flatMap fun b => bits b.toNat 8

/-- `payloadBits(mode, P)` (41_packer.md R169-R171). -/
def payloadBits (mode : Mode) (payload : List Byte) : List Bool :=
  match mode with
  | .numeric => numericBits payload
  | .alphanumeric => alnumBits payload
  | .byte => byteBits payload

/-- `modeBits(mode)` (41_packer.md R167). -/
def modeBits (micro : Bool) (ver : Nat) (mode : Mode) : List Bool :=
  bits (modeInd micro ver mode).2 (modeInd micro ver mode).1

/-- The mode segment: indicator, character count of width cb, payload bits (41_packer.md R160, R167, R168). -/
def segment (micro : Bool) (ver : Nat) (mode : Mode) (cb : Nat) (payload : List Byte) : List Bool :=
  modeBits micro ver mode ++ bits payload.length cb ++ payloadBits mode payload

/-! ## Terminator and padding; L is the data capacity in bits -/

/-- Append the terminator of `term` zero bits, shortened to the bits left (41_packer.md R173). -/
def terminate (term capacity : Nat) (seg : List Bool) : List Bool :=
  seg ++ List.replicate (min term (capacity - seg.length)) false

/-- Append zero bits until the length is a multiple of 8 or equals L (41_packer.md R174; log 16). -/
def alignToByte (capacity : Nat) (l : List Bool) : List Bool :=
  l ++ List.replicate (min ((8 - l.length % 8) % 8) (capacity - l.length)) false

/-- The k-th pad codeword, PAD_PAIR[k mod 2] (41_packer.md R175). -/
def padCodeword (k : Nat) : Byte := Config.params.padCodeword k

/-- Append pad codewords while at least 8 bits remain (41_packer.md R175; log 16). -/
def appendPads (capacity : Nat) (l : List Bool) : List Bool :=
  l ++ (List.range ((capacity - l.length) / 8)).flatMap fun k => bits (padCodeword k).toNat 8

/-- Append the final zero nibble if 4 bits remain (41_packer.md R176). -/
def appendNibble (capacity : Nat) (l : List Bool) : List Bool :=
  if capacity - l.length = 4 then l ++ List.replicate 4 false else l

/-- `terminateAndPad(seg)` (41_packer.md R177). -/
def terminateAndPad (term capacity : Nat) (seg : List Bool) : List Bool :=
  appendNibble capacity (appendPads capacity (alignToByte capacity (terminate term capacity seg)))

/-! ## PACK -/

/-- P: the payload PBUF[0..n−1], n = PLEN (41_packer.md R160). -/
def packPayload (s : State) : List Byte := (List.range s.plen.toNat).map s.pbuf

/-- The mode PACK encodes: the named one, or what AUTO finds (41_packer.md R160, R162). -/
def packMode (s : State) : Mode :=
  match s.config.namedMode with
  | some mode => mode
  | none => detectMode (packPayload s)

/-- The count width of the encoded mode in the symbol, none where the mode is not available (41_packer.md R163). -/
def packCountBits (s : State) : Option Nat := countBits s.config.micro s.config.ver (packMode s)

/-- seg: the mode segment (41_packer.md R160). -/
def packSegment (s : State) : List Bool :=
  segment s.config.micro s.config.ver (packMode s) ((packCountBits s).getD 0) (packPayload s)

/-- stream: the segment terminated and padded to L bits (41_packer.md R160). -/
def packStream (s : State) : List Bool :=
  terminateAndPad (termBits s.config.micro s.config.ver) s.config.capacity (packSegment s)

/-- PACK's checks, in order (41_packer.md R160; 60_exceptions.md R302). -/
def packCheck (s : State) : Option CmdError :=
  match s.config.check with
  | some e => some e
  | none =>
    if s.config.namedMode = none ∧ s.config.auto = false then some .invalidMode
    else if 8192 < s.plen.toNat then some .badArgument
    else if s.config.auto = false ∧ charsValid (packMode s) (packPayload s) = false then some .invalidCharacter
    else
      match packCountBits s with
      | none => some .invalidMode
      | some cb =>
        if s.plen.toNat < 1 ∨ 2 ^ cb - 1 < s.plen.toNat then some .charCountRange
        else if s.config.capacity < (packSegment s).length then some .capacityExceeded
        else none

/-- PACK's writes (41_packer.md R160, R178, R179). -/
def packWrites (s : State) : State :=
  { s.store dbufBase (bytesOfBits s.config.nData (packStream s)) with
    segbits := BitVec.ofNat 16 (packSegment s).length
    modeused := (packMode s).code
    ndcw := BitVec.ofNat 16 s.config.nData
    stage := s.stage.afterPack }

/-- PACK's pseudocode (41_packer.md R160). -/
def packRun (s : State) : Except CmdError State := guarded packCheck packWrites s

/-- PACK's core step (41_packer.md R160). -/
def execPack (s : State) : Host.Outcome State Fault Refusal := finish 0x10#8 s (packRun s)

/-! ## The capacity in characters -/

/-- The number of payload bits of n characters (41_packer.md R169-R171). -/
def payloadBitCount (mode : Mode) (n : Nat) : Nat :=
  match mode with
  | .numeric => 10 * (n / 3) + (if n % 3 = 2 then 7 else if n % 3 = 1 then 4 else 0)
  | .alphanumeric => 11 * (n / 2) + 6 * (n % 2)
  | .byte => 8 * n

/-- The most characters whose payload bits fit in `room` bits. -/
def charsThatFit (mode : Mode) (room : Nat) : Nat :=
  match mode with
  | .numeric => 3 * (room / 10) + (if 7 ≤ room % 10 then 2 else if 4 ≤ room % 10 then 1 else 0)
  | .alphanumeric => 2 * (room / 11) + (if 6 ≤ room % 11 then 1 else 0)
  | .byte => room / 8

/-- The largest payload, in characters, that fits in the symbol in a mode: what indicator and count leave of the
L bits, and what the count field can hold; none where the mode is not supported (20_memory.md R93; 41_packer.md
R166, R172). No command reads it: PACK checks bits. It is the number a host that searches for a symbol needs. -/
def SymbolConfig.charCapacity (c : SymbolConfig) (mode : Mode) : Option Nat :=
  match countBits c.micro c.ver mode with
  | none => none
  | some cb => some (min (2 ^ cb - 1) (charsThatFit mode (c.capacity - ((modeInd c.micro c.ver mode).1 + cb))))

end Sys2Proof.Machine
end

