-- ==== Sys2Proof/Machine/Control.lean ====
section
/-!
DEFINITION. Sys2Proof/Machine/Control.lean: the control commands (44_format_control.md section 3), NOP and
ENCODE, and what an illegal command word does (30_encoding.md R106).
-/

namespace Sys2Proof.Machine

/-- NOP's core step (44_format_control.md R286). -/
def execNop (s : State) : Host.Outcome State Fault Refusal := finish 0x00#8 s (.ok s)

/-- The stages of ENCODE still to run, each with its opcode, from the state the stages before left: the first
error ends it, with the opcode of the stage that raised it (44_format_control.md R287). -/
def runStages : List (BitVec 8 × (State → Except CmdError State)) → State → Except (CmdError × BitVec 8) State
  | [], s => .ok s
  | (op, run) :: rest, s =>
    match run s with
    | .error e => .error (e, op)
    | .ok t => runStages rest t

/-- The six stages of ENCODE in order (44_format_control.md R287). -/
def encodeStages : List (BitVec 8 × (State → Except CmdError State)) :=
  [(0x10#8, packRun), (0x22#8, eccgenRun), (0x30#8, reserveRun), (0x31#8, fillRun), (0x42#8, maskselRun),
   (0x50#8, formatRun)]

/-- ENCODE's core step (44_format_control.md R287). An error leaves the state ENCODE started from
(60_exceptions.md R305; log 11). -/
def execEncode (s : State) : Host.Outcome State Fault Refusal :=
  match runStages encodeStages s with
  | .error (e, op) => .next (completeError e op s)
  | .ok t => .next (completeOk t)

/-- The core step of a word that is no command: ILLEGAL_COMMAND, with ERROP the word's OP field
(30_encoding.md R106; 60_exceptions.md R303). -/
def illegalCommand (op : BitVec 8) (s : State) : State := completeError .illegalCommand op s

end Sys2Proof.Machine
end

