-- ==== Sys2Proof/Machine/Dispatch.lean ====
section
/-!
DEFINITION. Sys2Proof/Machine/Dispatch.lean: one arm for each command, the whole core step of that command
(10_state.md R47; 30_encoding.md R104).
-/

namespace Sys2Proof.Machine

def exec (i : Instr) (s : State) : Host.Outcome State Fault Refusal :=
  match i with
  -- control
  | .nop => Sys2Proof.Machine.execNop s
  -- bitstream packer
  | .pack => Sys2Proof.Machine.execPack s
  -- GF(256) and Reed-Solomon
  | .gfmul => Sys2Proof.Machine.execGfmul s
  | .rsenc => Sys2Proof.Machine.execRsenc s
  | .eccgen => Sys2Proof.Machine.execEccgen s
  -- matrix builder and traversal engine
  | .reserve => Sys2Proof.Machine.execReserve s
  | .fill => Sys2Proof.Machine.execFill s
  -- mask evaluator and selector
  | .maskapply p => Sys2Proof.Machine.execMaskapply p s
  | .maskscore p => Sys2Proof.Machine.execMaskscore p s
  | .masksel => Sys2Proof.Machine.execMasksel s
  -- metadata writer
  | .format => Sys2Proof.Machine.execFormat s
  -- whole pipeline
  | .encode => Sys2Proof.Machine.execEncode s

end Sys2Proof.Machine
end

