-- ==== Sys2Proof/Machine/CoreStep.lean ====
section
/-!
DEFINITION. Sys2Proof/Machine/CoreStep.lean: the step of the core agent (10_state.md R47).
-/

namespace Sys2Proof.Machine

/-- The core's step (10_state.md R47; 30_encoding.md R106): enabled only when the latch is full; it decodes
the latched word and runs the command, or ends it with ILLEGAL_COMMAND. With the latch empty the core is
idle and nothing changes (60_exceptions.md R317). -/
def coreStep (s : State) : Host.Outcome State Fault Refusal :=
  match s.pending with
  | none => .next s
  | some w =>
    match decode w with
    | .ok i => exec i s
    | .error _ => .next (illegalCommand (opField w) s)

end Sys2Proof.Machine
end

