-- ==== Sys2Proof/Machine/Step.lean ====
section
/-!
DEFINITION. Sys2Proof/Machine/Step.lean: one step of the machine. The agenda says whose turn it is
(10_state.md R47; log 1); with no event left, the pending command runs (70_reset_and_hazards.md R353; log 3).
-/

namespace Sys2Proof.Machine

/-- One step: the next event of the agenda, or the core's step when there is none. -/
def step (s : State) : Host.Outcome State Fault Refusal :=
  match s.agenda with
  | [] => coreStep s
  | .core :: rest => coreStep { s with agenda := rest }
  | .host acc :: rest => .next (hostAccess acc { s with agenda := rest })
  | .reset :: rest => .next (hardwareReset { s with agenda := rest })

/-- `s` with a command word accepted and the next turn the core's, so that the very next step runs it
(10_state.md R23, R47; log 2). -/
def State.withFetchWord (s : State) (nbits w : Nat) : State :=
  { acceptCommand (tableWord nbits w) s with agenda := .core :: s.agenda }

end Sys2Proof.Machine
end

