-- ==== Sys2Proof/Machine/HostProgram.lean ====
section
/-!
DEFINITION. Sys2Proof/Machine/HostProgram.lean: the host-program forms of 30_encoding.md R112, R113 as the bus
accesses and turns they stand for. A program is an agenda: its accesses in order, with core turns where the
core steps.
-/

namespace Sys2Proof.Machine

/-- The offset of a register (10_state.md R21). -/
def Csr.offset : Csr → Nat
  | .id => 0x00
  | .cmd => 0x04
  | .status => 0x08
  | .ctrl => 0x0C
  | .config => 0x10
  | .plen => 0x14
  | .stage => 0x18
  | .segbits => 0x1C
  | .modeused => 0x20
  | .maskid => 0x24
  | .score => 0x28
  | .dim => 0x2C
  | .ndcw => 0x30
  | .ncw => 0x34
  | .gfres => 0x38
  | .arg0 => 0x40
  | .arg1 => 0x44
  | .arg2 => 0x48
  | .arg3 => 0x4C
  | .mscore m => 0x60 + 4 * m.val

/-- The host address of a register. -/
def Csr.addr (k : Csr) : HostAddr := BitVec.ofNat 20 k.offset

/-- `WR <register>, <value>` (R112). -/
def wrCsr (k : Csr) (v : Word) : Access := .write k.addr v

/-- `RD <register>` (R112). -/
def rdCsr (k : Csr) : Access := .read k.addr

/-- `<MNEMONIC>` or `<MNEMONIC> <p>`: the write that issues a command (R112, R114). -/
def issue (i : Instr) : Access := wrCsr .cmd (encode i)

/-- `ACK`: `WR STATUS, 0x00000002` (R113). -/
def ack : Access := wrCsr .status 0x00000002#32

/-- `SETCFG <type>, <ver>, <ecc>, <mode>` (R113; R108). -/
def setcfg (c : SymbolConfig) : Access := wrCsr .config c.toWord

/-- Bytes packed little-endian into words, the missing bytes of the last word 0 (R113; 20_memory.md R62). -/
def packWords : List Byte → List Word
  | [] => []
  | [a] => [0#24 ++ a]
  | [a, b] => [0#16 ++ b ++ a]
  | [a, b, c] => [0#8 ++ c ++ b ++ a]
  | a :: b :: c :: d :: rest => (d ++ c ++ b ++ a) :: packWords rest

/-- `LOADBYTES <base>, b0 b1 …` (R113). -/
def loadBytes (base : Nat) (bs : List Byte) : List Access :=
  (packWords bs).zipIdx.map fun p => .write (BitVec.ofNat 20 (base + 4 * p.2)) p.1

/-- `LOADSTR "<text>"`: the bytes into PBUF and their number into PLEN (R113). -/
def loadStr (bs : List Byte) : List Access :=
  loadBytes pbufBase bs ++ [wrCsr .plen (BitVec.ofNat 32 bs.length)]

/-- `WAIT` (R113) where the core takes its turn after `n` reads of STATUS: the reads that find BUSY = 1, the
core's turn, and the read that finds BUSY = 0. How large n is, is free (70_reset_and_hazards.md R353). -/
def waitTurns (n : Nat) : List Turn :=
  List.replicate n (.host (rdCsr .status)) ++ [.core, .host (rdCsr .status)]

/-- `RUN <MNEMONIC> [p]`: the command and then `WAIT` (R113). -/
def runTurns (i : Instr) (n : Nat) : List Turn := .host (issue i) :: waitTurns n

end Sys2Proof.Machine
end

