-- ==== Sys2Proof/Safety.lean ====
section
/-!
DEFINITION. Sys2Proof/Safety.lean: the terms the claims are stated in: how a command ends, what an access
error is, and the invariants of the machine.
-/

namespace Sys2Proof.Machine

/-- The command ends with error `code` raised by opcode `op`, and with no other effect (60_exceptions.md R303,
R305). -/
def endsInError (i : Instr) (s : State) (code op : Nat) : Prop :=
  exec i s = .next { s with
    pending := none
    status := { s.status with
      done := true, err := true, errcode := BitVec.ofNat 4 code, errop := BitVec.ofNat 8 op } }

/-- csr.STATUS after a completion without error (60_exceptions.md R304). -/
def okStatus (st : Status) : Status := { st with done := true, err := false, errcode := 0#4, errop := 0#8 }

/-- The errors of checkConfig, which come before every other check (10_state.md R32; 60_exceptions.md R302). -/
def configErrorsFirst (i : Instr) (s : State) (op : Nat) : Prop :=
  (s.config.versionOK = false → endsInError i s 4 op) ∧
  (s.config.versionOK = true → s.config.eccOK = false → endsInError i s 5 op)

/-- CONFIG is legal: no command that calls checkConfig is stopped by it (10_state.md R32). -/
def State.configLegal (s : State) : Prop := s.config.versionOK = true ∧ s.config.eccOK = true

/-- No byte of storage differs but those of `[lo, lo + n)`, as the model reads one byte of the address space:
buffers, ROM and both grid planes. -/
def sameBytesOutside (s t : State) (lo n : Nat) : Prop :=
  ∀ a, ¬ (lo ≤ a ∧ a < lo + n) → t.byteAt a = s.byteAt a

/-- An access that fails sets ACCERR and does nothing else (10_state.md R28; 60_exceptions.md R307). -/
def onlySetsAccerr (s t : State) : Prop := t = { s with status := { s.status with accerr := true } }

/-- A host access refused while BUSY = 1: a read returns 0, ACCERR is set, nothing else happens (10_state.md
R28). -/
def readRefused (s t : State) : Prop :=
  t = { s with readData := 0#32, status := { s.status with accerr := true } }

/-- PACK accepts the payload: none of its checks fails (41_packer.md R160, R163-R166, R172). -/
def packAccepts (s : State) : Prop :=
  s.configLegal ∧
  (s.config.mode.toNat ≤ 2 ∨ s.config.mode.toNat = 7) ∧
  s.plen.toNat ≤ 8192 ∧
  (s.config.mode.toNat ≤ 2 → charsValid (packMode s) (packPayload s) = true) ∧
  ∃ cb, countBits s.config.micro s.config.ver (packMode s) = some cb ∧
    1 ≤ s.plen.toNat ∧ s.plen.toNat ≤ 2 ^ cb - 1 ∧ (packSegment s).length ≤ s.config.capacity

/-- MASKAPPLY p and MASKSCORE p are accepted: R is set, and for a Micro symbol p has an alternate id
(43_mask.md R250, R251). -/
def maskAccepts (p : Nat) (s : State) : Prop :=
  s.configLegal ∧ s.stage.r = true ∧ (s.config.micro = true → p ∈ [1, 4, 6, 7])

/-- Pattern p toggles cell (r, c): a free cell of the symbol where the predicate holds (43_mask.md R242). -/
def maskHits (p : Nat) (s : State) (r c : Nat) : Bool :=
  decide (r < s.config.dim ∧ c < s.config.dim) && !s.resAt r c && maskPredicate p r c

/-- The symbol's modules with pattern p applied, row by row (43_mask.md R242, R249). -/
def maskedRows (p : Nat) (s : State) : List (List Bool) :=
  (List.range s.config.dim).map fun i => (List.range s.config.dim).map fun j => s.modAt i j ^^ maskHits p s i j

/-- The word a host read of an address returns. -/
def State.hostReads (s : State) (a : HostAddr) : Word := (hostAccess (.read a) s).readData

/-- The format cells as 42_matrix.md R205 lists them: entry b holds the cells of bit b, both copies for Normal. -/
def formatCellTable (micro : Bool) (dim : Nat) : List (List (Nat × Nat)) :=
  if micro then
    [[(8, 1)], [(8, 2)], [(8, 3)], [(8, 4)], [(8, 5)], [(8, 6)], [(8, 7)], [(8, 8)],
     [(7, 8)], [(6, 8)], [(5, 8)], [(4, 8)], [(3, 8)], [(2, 8)], [(1, 8)]]
  else
    [[(0, 8), (8, dim - 1)], [(1, 8), (8, dim - 2)], [(2, 8), (8, dim - 3)],
     [(3, 8), (8, dim - 4)], [(4, 8), (8, dim - 5)], [(5, 8), (8, dim - 6)],
     [(7, 8), (8, dim - 7)], [(8, 8), (8, dim - 8)], [(8, 7), (dim - 7, 8)],
     [(8, 5), (dim - 6, 8)], [(8, 4), (dim - 5, 8)], [(8, 3), (dim - 4, 8)],
     [(8, 2), (dim - 3, 8)], [(8, 1), (dim - 2, 8)], [(8, 0), (dim - 1, 8)]]

/-- The version cells as 42_matrix.md R207 lists them: entry b holds the two cells of bit b, the one in the block at the
top right first. -/
def versionCellTable (dim : Nat) : List (List (Nat × Nat)) :=
  [[(0, dim - 11), (dim - 11, 0)], [(0, dim - 10), (dim - 10, 0)], [(0, dim - 9), (dim - 9, 0)],
   [(1, dim - 11), (dim - 11, 1)], [(1, dim - 10), (dim - 10, 1)], [(1, dim - 9), (dim - 9, 1)],
   [(2, dim - 11), (dim - 11, 2)], [(2, dim - 10), (dim - 10, 2)], [(2, dim - 9), (dim - 9, 2)],
   [(3, dim - 11), (dim - 11, 3)], [(3, dim - 10), (dim - 10, 3)], [(3, dim - 9), (dim - 9, 3)],
   [(4, dim - 11), (dim - 11, 4)], [(4, dim - 10), (dim - 10, 4)], [(4, dim - 9), (dim - 9, 4)],
   [(5, dim - 11), (dim - 11, 5)], [(5, dim - 10), (dim - 10, 5)], [(5, dim - 9), (dim - 9, 5)]]

/-- The score of pattern p by 43_mask.md R247-R249. -/
def patternScore (p : Nat) (s : State) : Nat :=
  if s.config.micro then microScore s.config.dim (maskedRows p s) else penalty s.config.dim (maskedRows p s)

/-- The value at x of the polynomial whose coefficients are `l`, the highest power first, over GF(256). -/
def polyEval (l : List Byte) (x : Byte) : Byte := l.foldl (fun acc c => gfmul acc x ^^^ c) 0#8

/-- The status fields fit together (10_state.md R26, R27, R50; 60_exceptions.md R301): an error is recorded
exactly with its code, the code is one of 1..9, only after a completion, and nothing is recorded while a
command is pending. -/
def State.statusConsistent (s : State) : Prop :=
  (s.status.err = true ↔ s.status.errcode ≠ 0#4) ∧
  (s.status.err = false → s.status.errop = 0#8) ∧
  (s.status.err = true → s.status.done = true) ∧
  s.status.errcode.toNat ≤ 9 ∧
  (s.pending ≠ none → s.status.done = false)

/-- The storage keeps its canonical form, and MODEUSED holds a mode (10_state.md R36, R46, R48). -/
def State.storageCanonical (s : State) : Prop :=
  s.mem.wf = true ∧ s.mod.wf = true ∧ s.res.wf = true ∧ s.modeused.toNat ≤ 2

/-- The machine invariant. -/
def State.Inv (s : State) : Prop := s.statusConsistent ∧ s.storageCanonical

/-- The order of the stage bits (70_reset_and_hazards.md R351). -/
def Stage.ordered (st : Stage) : Prop :=
  (st.e = true → st.p = true) ∧ (st.f = true → st.e = true ∧ st.r = true) ∧
  (st.m = true → st.f = true) ∧ (st.t = true → st.m = true)

/-- The next event is a host write of csr.STAGE. -/
def State.nextWritesStage (s : State) : Prop :=
  ∃ a w rest, s.agenda = .host (.write a w) :: rest ∧ wordBase a = 0x18

/-- The next event is a host write to the GRID region. -/
def State.nextWritesGrid (s : State) : Prop :=
  ∃ a w rest, s.agenda = .host (.write a w) :: rest ∧ regionOf (wordBase a) = .grid

/-- RES is the plane RESERVE draws for CONFIG whenever STAGE.R says so (70_reset_and_hazards.md R351). -/
def State.reservationValid (s : State) : Prop := s.stage.r = true → s.res = reservedRes s.config

end Sys2Proof.Machine
end

