-- ==== Sys2Proof/Certificates/Slice0/Obligations.lean ====
section
/-!
DEFINITION. Sys2Proof/Certificates/Slice0/Obligations.lean: the statements for the provers, each formalising
rules of spec/. The free values of the model (Config) have no body, so every statement holds whatever they
are.
-/

open Sys2Proof Sys2Proof.Machine

/-! ## Commands: encoding, decoding, the step -/

/-- Decode and encode agree both ways (30_encoding.md R106, R114): every command's word is `(p << 8) | OP` and decodes
to it, and a word that decodes to a command is that command's word, so no bit of a word is dropped. -/
def Obligations.DecodeAndEncodeAgree : Prop :=
  (∀ i : Instr, (encode i).toNat = (i.immediate.toNat <<< 8) ||| i.opcode.toNat) ∧
  (∀ i : Instr, decode (encode i) = .ok i) ∧ (∀ (w : Word) (i : Instr), decode w = .ok i → encode i = w)

/-- The core decodes the latched word at its step: a word with a known OP, RSV = 0 and IMM = 0 where no
immediate is taken runs the one command with that opcode and p = imm; every other word raises
ILLEGAL_COMMAND with ERROP its OP field and changes nothing but STATUS (30_encoding.md R106, R107). That the
step at the empty agenda is the core's turn is the model's choice (log 1, log 3). -/
def Obligations.EveryWordIsOneCommandOrIllegal : Prop :=
  ∀ (w : Word) (s : State), s.pending = some w → s.agenda = [] →
    let op := w.extractLsb' 0 8
    let imm := w.extractLsb' 8 3
    let legal := op.toNat ∈ [0x00, 0x10, 0x20, 0x21, 0x22, 0x30, 0x31, 0x40, 0x41, 0x42, 0x50, 0x60] ∧
      w.extractLsb' 11 21 = 0#21 ∧ (op.toNat ∉ [0x40, 0x41] → imm = 0#3)
    (legal → ∃ i : Instr, i.opcode = op ∧ i.immediate = imm ∧ step s = exec i s) ∧
    (¬ legal → step s = .next { s with
      pending := none
      status := { s.status with done := true, err := true, errcode := 7#4, errop := op } })

/-- Words written out from the opcode table and from 95_test_vectors.md L2.1. -/
def Obligations.SampleWordsDecode : Prop :=
  decode 0x00000000#32 = .ok .nop ∧
  decode 0x00000010#32 = .ok .pack ∧
  decode 0x00000021#32 = .ok .rsenc ∧
  decode 0x00000031#32 = .ok .fill ∧
  decode 0x00000540#32 = .ok (.maskapply 5#3) ∧
  decode 0x00000341#32 = .ok (.maskscore 3#3) ∧
  decode 0x00000050#32 = .ok .format ∧
  decode 0x00000060#32 = .ok .encode ∧
  decode 0x00000142#32 = .error (.unexpectedImmediate 0x42#8) ∧
  decode 0x00000011#32 = .error (.unknownOpcode 0x11#8) ∧
  decode 0x00000800#32 = .error (.reservedBitsSet 0x00#8)

/-- A step runs the decoded command: when the latched word decodes to i, the core's step is exec of i, at the
state with the core's turn taken off the agenda; a word placed by withFetchWord is run by the very next
step. The other turns are one host access, a hardware reset, and an idle core turn (10_state.md R47;
60_exceptions.md R317; the agenda and withFetchWord are the model's, log 1 and log 2). -/
def Obligations.StepRunsTheDecodedCommand : Prop :=
  (∀ (s : State) (w : Word) (i : Instr), s.pending = some w → decode w = .ok i →
    (s.agenda = [] → step s = exec i s) ∧
    (∀ rest, s.agenda = .core :: rest → step s = exec i { s with agenda := rest })) ∧
  (∀ (s : State) (nbits w : Nat) (i : Instr), decode (tableWord nbits w) = .ok i →
    step (s.withFetchWord nbits w) = exec i (acceptCommand (tableWord nbits w) s)) ∧
  (∀ (s : State) (acc : Access) (rest : List Turn), s.agenda = .host acc :: rest →
    step s = .next (hostAccess acc { s with agenda := rest })) ∧
  (∀ (s : State) (rest : List Turn), s.agenda = .reset :: rest →
    step s = .next (hardwareReset { s with agenda := rest })) ∧
  (∀ s : State, s.pending = none →
    (s.agenda = [] → step s = .next s) ∧
    (∀ rest, s.agenda = .core :: rest → step s = .next { s with agenda := rest }))

/-- No step stops the machine, each takes one event off the agenda, and once the agenda is used up the pending
command is completed (70_reset_and_hazards.md R353; 60_exceptions.md R300; log 3). -/
def Obligations.NoStepStopsAndPendingCommandsRun : Prop :=
  ∀ s : State, ∃ t, step s = .next t ∧ t.agenda = s.agenda.tail ∧ (s.agenda = [] → t.pending = none)

/-- WAIT ends: however many reads of STATUS come before the core's turn, the read after it finds BUSY = 0, and
DONE = 1 if a command was pending (30_encoding.md R113; 70_reset_and_hazards.md R353). -/
def Obligations.WaitSeesTheCommandComplete : Prop :=
  ∀ (s : State) (n : Nat) (rest : List Turn), s.agenda = waitTurns n ++ rest →
    ∃ t : State, Host.Core.run Sys2Proof.core (n + 2) s = .next t ∧ t.agenda = rest ∧ t.pending = none ∧
      t.readData.getLsbD 0 = false ∧ (s.pending ≠ none → t.readData.getLsbD 1 = true)

/-! ## Completion, errors, interrupt -/

/-- Every command completes: the latch is emptied and DONE set, with ERR, ERRCODE and ERROP all clear or ERR set
and a code in 1..9; ACCERR and every register no command writes stay. A command that ends with an error leaves
the whole state as it was apart from csr.STATUS and the emptied latch, and names its opcode, ENCODE that of
PACK (10_state.md R26, R27; 60_exceptions.md R301, R303-R305; 44_format_control.md R287). -/
def Obligations.EveryCommandCompletes : Prop :=
  ∀ (i : Instr) (s : State), ∃ t, exec i s = .next t ∧
    t.pending = none ∧ t.status.done = true ∧ t.status.accerr = s.status.accerr ∧
    ((t.status.err = false ∧ t.status.errcode = 0#4 ∧ t.status.errop = 0#8) ∨
     (t.status.err = true ∧ 1 ≤ t.status.errcode.toNat ∧ t.status.errcode.toNat ≤ 9 ∧
      t.status.errop = (match i with | .encode => 0x10#8 | j => j.opcode) ∧
      t = { s with pending := none, status := t.status })) ∧
    t.cmd = s.cmd ∧ t.irqEn = s.irqEn ∧ t.config = s.config ∧ t.plen = s.plen ∧
    t.arg0 = s.arg0 ∧ t.arg1 = s.arg1 ∧ t.arg2 = s.arg2 ∧ t.arg3 = s.arg3 ∧
    t.epoch = s.epoch ∧ t.agenda = s.agenda ∧ t.readData = s.readData

/-- What each command may write, by the opcode map (30_encoding.md R104): every result register, plane, STAGE bit
and buffer byte outside the command's "writes" column keeps its value. PBUF is written by no command
(10_state.md R46). -/
def Obligations.CommandsWriteOnlyWhatTheMapSays : Prop :=
  ∀ (i : Instr) (s t : State), exec i s = .next t →
    (i ≠ .gfmul → t.gfres = s.gfres) ∧
    (i ∉ [Instr.pack, .encode] → t.segbits = s.segbits ∧ t.modeused = s.modeused ∧ t.ndcw = s.ndcw) ∧
    (i ∉ [Instr.eccgen, .encode] → t.ncw = s.ncw) ∧
    (i ∉ [Instr.masksel, .encode] → t.maskid = s.maskid ∧ t.mscore = s.mscore) ∧
    (i.opcode ∉ [0x41#8, 0x42#8, 0x60#8] → t.score = s.score) ∧
    (i.opcode ∉ [0x10#8, 0x22#8, 0x30#8, 0x31#8, 0x42#8, 0x50#8, 0x60#8] → t.stage = s.stage) ∧
    (i ∉ [Instr.reserve, .encode] → t.res = s.res) ∧
    (i.opcode ∉ [0x30#8, 0x31#8, 0x40#8, 0x42#8, 0x50#8, 0x60#8] → t.mod = s.mod) ∧
    (∀ a, a < 0x10000 → t.byteAt a ≠ s.byteAt a →
      (0x04000 ≤ a ∧ a < 0x05000 ∧ i ∈ [Instr.pack, .encode]) ∨
      (0x05000 ≤ a ∧ a < 0x06000 ∧ i ∈ [Instr.rsenc, .eccgen, .encode]))

/-- BUSY is set only by the acceptance of a command, and cleared only by the core step that completes it or by a
reset (10_state.md R25; the turns are those of the model's agenda, log 1). -/
def Obligations.BusyChangesOnlyByIssueCompletionReset : Prop :=
  ∀ s t : State, step s = .next t →
    (s.busy = false → t.busy = true → ∃ a w rest, s.agenda = .host (.write a w) :: rest ∧ wordBase a = 0x04 ∧
      t.pending = some w) ∧
    (s.busy = true → t.busy = false →
      (s.agenda = [] ∨ s.agenda.head? = some .core) ∨ s.agenda.head? = some .reset ∨
      ∃ a w rest, s.agenda = .host (.write a w) :: rest ∧ wordBase a = 0x0C ∧ w.getLsbD 31 = true)

/-- Which CONFIG words are legal, by the numbers of 30_encoding.md R108: the version first, then the level
(10_state.md R32; 20_memory.md R92). -/
def Obligations.ConfigLegalityTable : Prop :=
  ∀ c : SymbolConfig,
    let v := c.version.toNat
    let e := c.ecc.toNat
    let versionLegal := (c.micro = false ∧ 1 ≤ v ∧ v ≤ 40) ∨ (c.micro = true ∧ 1 ≤ v ∧ v ≤ 4)
    let levelLegal := (c.micro = false ∧ e ∈ [1, 2, 3, 4]) ∨ (c.micro = true ∧ v = 1 ∧ e = 0) ∨
      (c.micro = true ∧ v ∈ [2, 3] ∧ e ∈ [1, 2]) ∨ (c.micro = true ∧ v = 4 ∧ e ∈ [1, 2, 3])
    (c.check = some .unsupportedVersion ↔ ¬ versionLegal) ∧
    (c.check = some .invalidEccLevel ↔ versionLegal ∧ ¬ levelLegal) ∧
    (c.check = none ↔ versionLegal ∧ levelLegal)

/-- After reset CONFIG is 0, and every command that calls checkConfig raises UNSUPPORTED_VERSION, there and wherever
the version in CONFIG is not legal; GFMUL, RSENC (with legal arguments) and NOP work at once
(70_reset_and_hazards.md R341). -/
def Obligations.AfterResetOnlyConfigFreeCommandsWork : Prop :=
  State.reset.readWord 0x10#20 = 0#32 ∧ State.reset.config.versionOK = false ∧
  (∀ (i : Instr) (s : State), i ∉ [Instr.nop, .gfmul, .rsenc] → s.config.versionOK = false →
    endsInError i s 4 (match i with | .encode => 0x10 | j => j.opcode.toNat)) ∧
  (∀ a0 a1 a2 a3 : Word, 1 ≤ a2.toNat → a2.toNat ≤ 30 → a0.toNat + a1.toNat ≤ 4096 →
    a3.toNat + a2.toNat ≤ 4096 →
    ∀ i ∈ [Instr.nop, .gfmul, .rsenc], ∃ t,
      exec i { State.reset with arg0 := a0, arg1 := a1, arg2 := a2, arg3 := a3 } = .next t ∧
        t.status = okStatus State.reset.status)

/-- irq is IRQ_EN and DONE. It rises at the completion of every command while IRQ_EN = 1, and falls when DONE is cleared, a command is
accepted, IRQ_EN is cleared, or at a reset (60_exceptions.md R308). -/
def Obligations.InterruptFollowsDone : Prop :=
  (∀ s : State, s.irq = (s.irqEn && s.status.done)) ∧
  (∀ (i : Instr) (s t : State), exec i s = .next t → t.irq = s.irqEn) ∧
  (∀ (s : State) (w : Word) (a : HostAddr), wordBase a = 0x08 → w.getLsbD 1 = true →
    (hostWrite a w s).irq = false) ∧
  (∀ (s : State) (w : Word) (a : HostAddr), wordBase a = 0x04 → s.busy = false →
    (hostWrite a w s).irq = false) ∧
  (∀ (s : State) (w : Word) (a : HostAddr), wordBase a = 0x0C → w.getLsbD 0 = false →
    (hostWrite a w s).irq = false) ∧
  (∀ s : State, (softReset s).irq = false ∧ (hardwareReset s).irq = false) ∧
  (∀ (s : State) (w : Word) (a : HostAddr), wordBase a = 0x0C → w.getLsbD 31 = false → w.getLsbD 0 = true →
    s.status.done = true → (hostWrite a w s).irq = true)

/-- NOP is the word 0, a word with OP = 0 and any other bit set is no command, and NOP completes and does nothing
else: with ACCERR clear, STATUS reads 0x00000002 (44_format_control.md R286). -/
def Obligations.NopOnlyCompletes : Prop :=
  encode .nop = 0#32 ∧
  (∀ (w : Word) (i : Instr), w.extractLsb' 0 8 = 0#8 → w ≠ 0#32 → decode w ≠ .ok i) ∧
  ∀ s : State, exec .nop s = .next { s with pending := none, status := okStatus s.status } ∧
    (s.status.accerr = false →
      State.readWord { s with pending := none, status := okStatus s.status } 0x08#20 = 0x00000002#32)

/-! ## GF(256) and Reed–Solomon -/

/-- The EXP and LOG tables are those of the field polynomial (40_gf_rs.md R131). -/
def Obligations.FieldTablesFollowThePolynomial : Prop :=
  expRom 0 = 0x01#8 ∧
  (∀ i < 254, (expRom (i + 1)).toNat =
    ((expRom i).toNat <<< 1) ^^^ (if (expRom i).getLsbD 7 then Config.gfPoly else 0)) ∧
  (∀ i < 255, (logRom (expRom i).toNat).toNat = i) ∧
  (∀ b : Byte, b ≠ 0#8 → ∃ i < 255, expRom i = b) ∧
  (∀ i < 255, ∀ j < 255, expRom i = expRom j → i = j) ∧
  (∀ i < 255, expRom i ≠ 0#8) ∧
  expRom 255 = 0x01#8 ∧ logRom 0 = 0x00#8

/-- gfmul is the multiplication of the field of 40_gf_rs.md R130: the laws of R143(a), and multiplication by α
is a shift reduced by GF_POLY, which together fix it. -/
def Obligations.GfmulIsTheFieldMultiplication : Prop :=
  ∀ a b c : Byte,
    gfmul a b = gfmul b a ∧
    gfmul (gfmul a b) c = gfmul a (gfmul b c) ∧
    gfmul a (b ^^^ c) = gfmul a b ^^^ gfmul a c ∧
    gfmul a 0x01#8 = a ∧ gfmul a 0x00#8 = 0x00#8 ∧
    (a ≠ 0x00#8 → gfmul a (expRom ((255 - (logRom a.toNat).toNat) % 255)) = 0x01#8) ∧
    gfmul 0x02#8 b = (b <<< 1) ^^^ (if b.getLsbD 7 then BitVec.ofNat 8 Config.gfPoly else 0#8)

/-- GFMUL: GFRES takes the product of ARG0[7:0] and ARG1[7:0], bits 31:8 are ignored, and nothing else changes
but the completion (40_gf_rs.md R135, R132). -/
def Obligations.GfmulWritesTheProduct : Prop :=
  ∀ (s : State) (a b : Byte), a.toNat = s.arg0.toNat % 256 → b.toNat = s.arg1.toNat % 256 →
    exec .gfmul s = .next { s with
      gfres := if a = 0#8 ∨ b = 0#8 then 0#8
        else expRom (((logRom a.toNat).toNat + (logRom b.toNat).toNat) % 255)
      pending := none
      status := okStatus s.status }

/-- The generator polynomials are monic of degree n and vanish exactly at α^0 .. α^(n−1) among the powers of α
(40_gf_rs.md R134). -/
def Obligations.GeneratorsHaveTheirRoots : Prop :=
  ∀ n, 1 ≤ n → n ≤ 30 →
    genRom n 0 = 0x01#8 ∧
    ∀ i < 255, (polyEval ((List.range (n + 1)).map (genRom n)) (expRom i) = 0#8 ↔ i < n)

/-- The data followed by its parity is a multiple of the generator: it vanishes at every root α^0 .. α^(n−1),
and the parity has n bytes, so it is the remainder (40_gf_rs.md R134, R137). -/
def Obligations.ParityMakesACodeword : Prop :=
  ∀ (data : List Byte) (n : Nat), 1 ≤ n → n ≤ 30 →
    (rsRemainder data n).length = n ∧ ∀ i < n, polyEval (data ++ rsRemainder data n) (expRom i) = 0#8

/-- RSENC (40_gf_rs.md R136): its checks, and its writes with their frame. -/
def Obligations.RsencWritesTheRemainder : Prop :=
  ∀ s : State,
    let src := s.arg0.toNat
    let k := s.arg1.toNat
    let n := s.arg2.toNat
    let d := s.arg3.toNat
    ((n < 1 ∨ 30 < n ∨ 4096 < src + k ∨ 4096 < d + n) → endsInError .rsenc s 8 0x21) ∧
    (1 ≤ n → n ≤ 30 → src + k ≤ 4096 → d + n ≤ 4096 →
      ∃ t, exec .rsenc s = .next t ∧
        t = { s with mem := t.mem, pending := none, status := okStatus s.status } ∧
        (∀ i < n, t.cwbuf (d + i) = (rsRemainder ((List.range k).map fun j => s.dbuf (src + j)) n).getD i 0#8) ∧
        sameBytesOutside s t (0x05000 + d) n)

/-- Interleaving loses and invents no byte, and takes byte j of every block that has one, in block order, before
byte j + 1 of any: byte j of block b comes after the first j bytes of every block and after byte j of the
blocks before b that have one, whatever the blocks' lengths (40_gf_rs.md R139). -/
def Obligations.InterleaveTakesTurns : Prop :=
  (∀ lists : List (List Byte), (interleave lists).Perm lists.flatten) ∧
  (∀ (lists : List (List Byte)) (b j : Nat), b < lists.length → j < (lists.getD b []).length →
    (interleave lists)[(lists.map fun l => min l.length j).sum + (lists.take b).countP fun l => decide (j < l.length)]? =
      (lists.getD b [])[j]?)

/-- ECCGEN (40_gf_rs.md R140, R141): its checks, and its writes with their frame. -/
def Obligations.EccgenWritesTheFinalSequence : Prop :=
  ∀ s : State,
    configErrorsFirst .eccgen s 0x22 ∧
    (s.configLegal → s.stage.p = false → endsInError .eccgen s 9 0x22) ∧
    (s.configLegal → s.stage.p = true →
      let codewords := (List.range s.config.nData).map fun i =>
        if s.config.nibbleShort = true ∧ i = s.config.nData - 1 then s.dbuf i &&& 0xF0#8 else s.dbuf i
      let out := finalSequence (splitBlocks (blockShapes s.config.groups) codewords)
      ∃ t, exec .eccgen s = .next t ∧
        t = { s with
          mem := t.mem
          ncw := t.ncw
          stage := { s.stage with e := true, f := false, m := false, t := false }
          pending := none
          status := okStatus s.status } ∧
        t.ncw.toNat = s.config.nTotal ∧
        out.length = s.config.nTotal ∧
        (∀ i < s.config.nTotal, t.cwbuf i = out.getD i 0#8) ∧
        sameBytesOutside s t 0x05000 s.config.nTotal)

/-- In a symbol of one block, the nibble-short M1 and M3 among them, ECCGEN leaves the data codewords followed by
their parity, and the whole is a codeword of the Reed–Solomon code; the last data codeword of a nibble-short
symbol has bits 3:0 zero, whatever DBUF holds there (40_gf_rs.md R140, corner cases; R141). -/
def Obligations.OneBlockSymbolIsDataThenParity : Prop :=
  ∀ (s : State) (total data : Nat), s.configLegal → s.stage.p = true → s.config.groups = [⟨1, total, data⟩] →
    ∃ t, exec .eccgen s = .next t ∧
      (∀ i < data, t.cwbuf i =
        if s.config.nibbleShort = true ∧ i = data - 1 then s.dbuf i &&& 0xF0#8 else s.dbuf i) ∧
      ∀ i < total - data, polyEval ((List.range total).map t.cwbuf) (expRom i) = 0#8

/-! ## PACK -/

/-- The 45 characters in the order QRS lists them take the values 0..44; every other byte is outside the set
(20_memory.md R88). -/
def Obligations.AlnumValuesFollowTheListedOrder : Prop :=
  ∀ b : Byte, alnum b =
    ("0123456789ABCDEFGHIJKLMNOPQRSTUVWXYZ $%*+-./:".toList.map Char.toNat).findIdx? (· == b.toNat)

/-- AUTO picks the tightest mode: Numeric exactly for digits only, else AlphaNumeric exactly for the 45
characters only, else Byte; the payload is valid in the mode picked and in no tighter one
(41_packer.md R162). -/
def Obligations.AutoPicksTheTightestMode : Prop :=
  ∀ payload : List Byte,
    (detectMode payload = .numeric ↔ ∀ b ∈ payload, 0x30 ≤ b.toNat ∧ b.toNat ≤ 0x39) ∧
    (detectMode payload = .byte ↔ ∃ b ∈ payload, alnum b = none) ∧
    charsValid (detectMode payload) payload = true ∧
    ∀ mode : Mode, charsValid mode payload = true → (detectMode payload).code.toNat ≤ mode.code.toNat

/-- PACK's errors after checkConfig's, in its order (41_packer.md R160, R163-R166, R172; 60_exceptions.md R302). -/
def Obligations.PackReportsItsFirstFailingCheck : Prop :=
  ∀ s : State,
    let m := s.config.mode.toNat
    let n := s.plen.toNat
    let cb := countBits s.config.micro s.config.ver (packMode s)
    configErrorsFirst .pack s 0x10 ∧
    (s.configLegal → m ∈ [3, 4, 5, 6] → endsInError .pack s 3 0x10) ∧
    (s.configLegal → m ∉ [3, 4, 5, 6] → 8192 < n → endsInError .pack s 8 0x10) ∧
    (s.configLegal → m ∉ [3, 4, 5, 6] → n ≤ 8192 →
      (m ≠ 7 → charsValid (packMode s) (packPayload s) = false → endsInError .pack s 6 0x10) ∧
      ((m ≠ 7 → charsValid (packMode s) (packPayload s) = true) →
        (cb = none → endsInError .pack s 3 0x10) ∧
        (∀ w, cb = some w → (n < 1 ∨ 2 ^ w - 1 < n) → endsInError .pack s 2 0x10) ∧
        (∀ w, cb = some w → 1 ≤ n → n ≤ 2 ^ w - 1 → s.config.capacity < (packSegment s).length →
          endsInError .pack s 1 0x10)))

/-- The stream of an accepted payload: the segment, the terminator shortened to the room left, zero bits up to a
whole byte or to L, the pad codewords 0xEC and 0x11 in turn, at most one zero nibble; its length is exactly
the capacity L (41_packer.md R173-R177). -/
def Obligations.PackStreamFillsTheCapacity : Prop :=
  ∀ s : State, packAccepts s →
    let len := (packSegment s).length
    let term := min (termBits s.config.micro s.config.ver) (s.config.capacity - len)
    (packStream s).length = s.config.capacity ∧
    ∃ align pads tail : Nat, packStream s = packSegment s ++ List.replicate term false ++
        List.replicate align false ++
        ((List.range pads).flatMap fun k => bits (if k % 2 = 0 then 0xEC else 0x11) 8) ++
        List.replicate tail false ∧
      align ≤ 7 ∧ ((len + term + align) % 8 = 0 ∨ len + term + align = s.config.capacity) ∧ tail ∈ [0, 4]

/-- PACK on a payload it accepts: DBUF takes the stream, most significant bit first, and SEGBITS, MODEUSED, NDCW
and STAGE their values; nothing else changes (41_packer.md R160, R178, R179). MODEUSED is MODE where the host
named the mode, and what AUTO finds in PBUF[0..PLEN−1] where MODE = 7 (10_state.md R36; R162). -/
def Obligations.PackWritesTheStream : Prop :=
  ∀ s : State, packAccepts s →
    ∃ t, exec .pack s = .next t ∧
      t = { s with
        mem := t.mem
        segbits := t.segbits
        modeused := t.modeused
        ndcw := t.ndcw
        stage := { s.stage with p := true, e := false, f := false, m := false, t := false }
        pending := none
        status := okStatus s.status } ∧
      t.segbits.toNat = (packSegment s).length ∧
      (s.config.mode.toNat ≤ 2 → t.modeused = s.config.mode) ∧
      (s.config.mode.toNat = 7 → t.modeused = (detectMode ((List.range s.plen.toNat).map s.pbuf)).code) ∧
      t.ndcw.toNat = s.config.nData ∧
      (∀ i < s.config.nData, ∀ j < 8, (t.dbuf i).getLsbD (7 - j) = (packStream s).getD (8 * i + j) false) ∧
      sameBytesOutside s t 0x04000 s.config.nData

/-- The segment loses nothing: payloads valid in the mode and short enough for the count field that make the
same segment are the same payload; and its length is that of the indicator, the count field and 10, 7 or 4
bits for three, two or one digits, 11 or 6 for two or one characters, 8 for a byte (41_packer.md
R166-R171). -/
def Obligations.SegmentDeterminesThePayload : Prop :=
  ∀ (micro : Bool) (ver cb : Nat) (mode : Mode) (p q : List Byte),
    (charsValid mode p = true → charsValid mode q = true → p.length < 2 ^ cb → q.length < 2 ^ cb →
      segment micro ver mode cb p = segment micro ver mode cb q → p = q) ∧
    (segment micro ver mode cb p).length = (modeInd micro ver mode).1 + cb +
      match mode with
      | .numeric => 10 * (p.length / 3) + (if p.length % 3 = 2 then 7 else if p.length % 3 = 1 then 4 else 0)
      | .alphanumeric => 11 * (p.length / 2) + 6 * (p.length % 2)
      | .byte => 8 * p.length

/-! ## RESERVE and FILL -/

/-- RESERVE (42_matrix.md R211): its errors, the registers it writes, every byte outside the GRID region as before,
the cells outside the symbol 0 in both planes, and every free cell Light (R210). -/
def Obligations.ReserveClearsAndDrawsTheGrid : Prop :=
  ∀ s : State,
    configErrorsFirst .reserve s 0x30 ∧
    (s.configLegal →
      ∃ t, exec .reserve s = .next t ∧
        t = { s with
          mod := t.mod
          res := t.res
          stage := { s.stage with r := true, f := false, m := false, t := false }
          pending := none
          status := okStatus s.status } ∧
        (∀ a, regionOf a ≠ .grid → t.byteAt a = s.byteAt a) ∧
        (∀ r c, ¬ (r < s.config.dim ∧ c < s.config.dim) → t.modAt r c = false ∧ t.resAt r c = false) ∧
        (∀ r c, t.resAt r c = false → t.modAt r c = false))

/-- The function patterns RESERVE leaves, for every legal symbol: finders (42_matrix.md R203), separators (R204),
dark module (R206), timing lines (R208), alignment patterns at every pair of centres but the three at the
finders (R201, R202), and the format and version cells at the coordinates the rules list, reserved and Light
(R205, R207). -/
def Obligations.FunctionPatternsStandInTheGrid : Prop :=
  ∀ s : State, s.configLegal → ∃ t, exec .reserve s = .next t ∧
    let dim := s.config.dim
    let dark := fun (r c : Nat) => t.resAt r c = true ∧ t.modAt r c = true
    let light := fun (r c : Nat) => t.resAt r c = true ∧ t.modAt r c = false
    let distance := fun (a b : Nat) => ((a : Int) - (b : Int)).natAbs
    let corners := if s.config.micro then [(0, 0)] else [(0, 0), (0, dim - 7), (dim - 7, 0)]
    (∀ k ∈ corners, ∀ r c : Nat, r < 7 → c < 7 →
      if max (distance r 3) (distance c 3) = 2 then light (k.1 + r) (k.2 + c) else dark (k.1 + r) (k.2 + c)) ∧
    (∀ k : Nat, k < 8 → light 7 k ∧ light k 7 ∧
      (s.config.micro = false →
        light 7 (dim - 8 + k) ∧ light k (dim - 8) ∧ light (dim - 8) k ∧ light (dim - 8 + k) 7)) ∧
    (s.config.micro = false → dark (dim - 8) 8) ∧
    (∀ k : Nat, 8 ≤ k →
      (s.config.micro = false → k ≤ dim - 9 → if k % 2 = 0 then dark 6 k ∧ dark k 6 else light 6 k ∧ light k 6) ∧
      (s.config.micro = true → k ≤ dim - 1 → if k % 2 = 0 then dark 0 k ∧ dark k 0 else light 0 k ∧ light k 0)) ∧
    (s.config.micro = false → ∀ r ∈ alignCentres s.config.ver, ∀ c ∈ alignCentres s.config.ver,
      (r, c) ∉ [(6, 6), (6, dim - 7), (dim - 7, 6)] → ∀ i j : Nat, i < 5 → j < 5 →
        if max (distance i 2) (distance j 2) = 1 then light (r - 2 + i) (c - 2 + j)
        else dark (r - 2 + i) (c - 2 + j)) ∧
    (∀ k ∈ (formatCellTable s.config.micro dim).flatten, light k.1 k.2) ∧
    (s.config.micro = false → 7 ≤ s.config.ver → ∀ k ∈ (versionCellTable dim).flatten, light k.1 k.2)

/-- The free cells after RESERVE are Light, and there are 8 · nTotal + rem(v) of them for Normal, nBits for Micro,
which is 36, 80, 132, 192 for M1 to M4 (42_matrix.md R210). -/
def Obligations.FreeCellCount : Prop :=
  ∀ s : State, s.configLegal → ∃ t, exec .reserve s = .next t ∧
    let v := s.config.ver
    let rem := if v ∈ [2, 3, 4, 5, 6] then 7
      else if (14 ≤ v ∧ v ≤ 20) ∨ (28 ≤ v ∧ v ≤ 34) then 3
      else if 21 ≤ v ∧ v ≤ 27 then 4 else 0
    let free := ((squareCells s.config.dim).countP fun k => !t.resAt k.1 k.2)
    (∀ r c, r < s.config.dim → c < s.config.dim → t.resAt r c = false → t.modAt r c = false) ∧
    (s.config.micro = false → free = 8 * s.config.nTotal + rem) ∧
    (s.config.micro = true → free = s.config.nBits ∧ [36, 80, 132, 192][v - 1]? = some free)

/-- The order of the traversal (42_matrix.md R212): column pairs from right to left, the first pair going up from the
bottom row and the direction reversing with each pair, the right column first in every row; in a Normal symbol
the pairs from column 6 on lie one column further left. So every cell of the symbol outside the skipped column,
6 in a Normal symbol and 0 in a Micro one, is visited exactly once. -/
def Obligations.TraversalVisitsEachCellOnce : Prop :=
  ∀ c : SymbolConfig, c.versionOK = true →
    let order := traversal c.micro c.dim
    order.length = c.dim * (c.dim - 1) ∧
    (∀ q k : Nat, q < (c.dim - 1) / 2 → k < c.dim →
      let column := c.dim - 1 - 2 * q
      let right := if c.micro = false ∧ column ≤ 6 then column - 1 else column
      let r := if q % 2 = 0 then c.dim - 1 - k else k
      order[2 * (c.dim * q + k)]? = some (r, right) ∧ order[2 * (c.dim * q + k) + 1]? = some (r, right - 1)) ∧
    order.Nodup ∧
    (∀ r k, (r, k) ∈ order ↔ r < c.dim ∧ k < c.dim ∧ k ≠ (if c.micro then 0 else 6))

/-- FILL (42_matrix.md R213, R214): its errors; in traversal order the free cells take the bits of CWBUF and then
Light; every other cell keeps its module and no reservation bit changes. The bits are those of
CWBUF[0..nTotal−1] in turn, bit 7 of a codeword first; the last data codeword of a nibble-short symbol gives
bits 7:4 only (40_gf_rs.md R142). -/
def Obligations.FillPlacesTheBits : Prop :=
  ∀ s : State,
    configErrorsFirst .fill s 0x31 ∧
    (s.configLegal → (s.stage.e = false ∨ s.stage.r = false) → endsInError .fill s 9 0x31) ∧
    (s.configLegal → s.stage.e = true → s.stage.r = true →
      let free := (traversal s.config.micro s.config.dim).filter fun k => !s.resAt k.1 k.2
      let seq := finalBits s
      ∃ t, exec .fill s = .next t ∧
        t = { s with
          mod := t.mod
          stage := { s.stage with f := true, m := false, t := false }
          pending := none
          status := okStatus s.status } ∧
        seq.length = s.config.nBits ∧
        (∀ i < s.config.nTotal, ∀ j < (if s.config.nibbleShort = true ∧ i = s.config.nData - 1 then 4 else 8),
          seq[8 * i - (if s.config.nibbleShort = true ∧ s.config.nData ≤ i then 4 else 0) + j]? =
            some ((s.cwbuf i).getLsbD (7 - j))) ∧
        (free.map fun k => t.modAt k.1 k.2) =
          seq.take free.length ++ List.replicate (free.length - seq.length) false ∧
        (∀ r c, (r, c) ∉ free → t.modAt r c = s.modAt r c))

/-- FILL on the grid RESERVE drew (42_matrix.md R215): every free cell is written exactly once and no reserved cell
is, every codeword bit is placed, and MOD outside the symbol is 0. -/
def Obligations.FillAfterReservePlacesEveryBit : Prop :=
  ∀ s : State, s.configLegal → s.stage.e = true →
    ∃ t u, exec .reserve s = .next t ∧ exec .fill t = .next u ∧
      let free := (traversal s.config.micro s.config.dim).filter fun k => !t.resAt k.1 k.2
      free.Nodup ∧
      (∀ r c, r < s.config.dim → c < s.config.dim → (t.resAt r c = false ↔ (r, c) ∈ free)) ∧
      (∀ r c, t.resAt r c = true → u.modAt r c = t.modAt r c) ∧
      s.config.nBits ≤ free.length ∧
      ((free.take s.config.nBits).map fun k => u.modAt k.1 k.2) = finalBits s ∧
      (∀ r c, ¬ (r < s.config.dim ∧ c < s.config.dim) → u.modAt r c = false)

/-! ## Masks -/

/-- MASKAPPLY p (43_mask.md R242, R250): its errors; every free cell of the symbol where the condition of pattern p
holds is toggled, every other cell stays, and no register changes; a second MASKAPPLY p leaves every byte as it
was. The eight conditions are those of R240, i the row and j the column, and maskPredicate is these. -/
def Obligations.MaskapplyTogglesTheFreeCells : Prop :=
  ∀ (p : BitVec 3) (s : State),
    let condition : Nat → Nat → Prop := fun i j =>
      match p.toNat with
      | 0 => (i + j) % 2 = 0
      | 1 => i % 2 = 0
      | 2 => j % 3 = 0
      | 3 => (i + j) % 3 = 0
      | 4 => (i / 2 + j / 3) % 2 = 0
      | 5 => (i * j) % 2 + (i * j) % 3 = 0
      | 6 => ((i * j) % 2 + (i * j) % 3) % 2 = 0
      | 7 => ((i + j) % 2 + (i * j) % 3) % 2 = 0
      | _ => False
    (∀ i j, maskPredicate p.toNat i j = true ↔ condition i j) ∧
    configErrorsFirst (.maskapply p) s 0x40 ∧
    (s.configLegal → s.stage.r = false → endsInError (.maskapply p) s 9 0x40) ∧
    (s.configLegal → s.stage.r = true → s.config.micro = true → p.toNat ∉ [1, 4, 6, 7] →
      endsInError (.maskapply p) s 8 0x40) ∧
    (maskAccepts p.toNat s →
      ∃ t u, exec (.maskapply p) s = .next t ∧ exec (.maskapply p) t = .next u ∧
        t = { s with mod := t.mod, pending := none, status := okStatus s.status } ∧
        (∀ r c, r < s.config.dim → c < s.config.dim → s.resAt r c = false → condition r c →
          t.modAt r c = !s.modAt r c) ∧
        (∀ r c, ¬ (r < s.config.dim ∧ c < s.config.dim ∧ s.resAt r c = false ∧ condition r c) →
          t.modAt r c = s.modAt r c) ∧
        ∀ a, u.byteAt a = s.byteAt a)

/-- MASKSCORE p (43_mask.md R249, R251, R254): its errors; SCORE takes exactly the score of the grid with pattern p
applied, and nothing else changes, MOD included (R253). For a Micro symbol the score is 16 times the smaller
plus the larger of the Dark modules of the whole rightmost column and of the whole bottom row (R248); for a
Normal symbol it is N1 + N2 + N3 + N4 over the rows and the columns of the symbol (R247), each of which a
statement of its own gives. -/
def Obligations.MaskscoreWritesTheScore : Prop :=
  ∀ (p : BitVec 3) (s : State),
    configErrorsFirst (.maskscore p) s 0x41 ∧
    (s.configLegal → s.stage.r = false → endsInError (.maskscore p) s 9 0x41) ∧
    (s.configLegal → s.stage.r = true → s.config.micro = true → p.toNat ∉ [1, 4, 6, 7] →
      endsInError (.maskscore p) s 8 0x41) ∧
    (maskAccepts p.toNat s →
      let dim := s.config.dim
      let dark : Nat → Nat → Bool := fun i j => s.modAt i j ^^ maskHits p.toNat s i j
      let rows := (List.range dim).map fun i => (List.range dim).map fun j => dark i j
      let columns := (List.range dim).map fun j => (List.range dim).map fun i => dark i j
      let rc := (List.range dim).countP fun i => dark i (dim - 1)
      let bc := (List.range dim).countP fun j => dark (dim - 1) j
      let d := (squareCells dim).countP fun k => dark k.1 k.2
      let score := if s.config.micro then 16 * min rc bc + max rc bc
        else penaltyN1 (rows ++ columns) + penaltyN2 rows + penaltyN3 (rows ++ columns) + penaltyN4 dim d
      patternScore p.toNat s = score ∧
      ∃ t, exec (.maskscore p) s = .next t ∧
        t = { s with score := t.score, pending := none, status := okStatus s.status } ∧
        t.score.toNat = score)

/-- N1 adds ℓ − 2 for every maximal run of length ℓ ≥ 5 of every line (43_mask.md R243). -/
def Obligations.RunPenaltyCountsMaximalRuns : Prop :=
  ∀ lines : List (List Bool), penaltyN1 lines =
    (lines.map fun line =>
      ((line.splitBy (· == ·)).map fun run => if 5 ≤ run.length then run.length - 2 else 0).sum).sum

/-- N2 adds 3 for every 2×2 block of four equal modules, blocks overlapping (43_mask.md R244). -/
def Obligations.BlockPenaltyCountsEqualSquares : Prop :=
  ∀ (dim : Nat) (rows : List (List Bool)), rows.length = dim → (∀ row ∈ rows, row.length = dim) →
    let m := fun i j => (rows.getD i []).getD j false
    penaltyN2 rows = 3 * ((squareCells (dim - 1)).countP fun k =>
      m k.1 k.2 == m k.1 (k.2 + 1) && m k.1 k.2 == m (k.1 + 1) k.2 && m k.1 k.2 == m (k.1 + 1) (k.2 + 1))

/-- N3 adds 40 for every window of eleven modules of a line that equals one of the two sequences
(43_mask.md R245). -/
def Obligations.FinderPenaltyCountsWindows : Prop :=
  ∀ lines : List (List Bool),
    let a := [true, false, true, true, true, false, true, false, false, false, false]
    penaltyN3 lines = 40 * (lines.map fun line =>
      ((List.range (line.length + 1 - 11)).map fun s =>
        (if (line.drop s).take 11 = a then 1 else 0) + (if (line.drop s).take 11 = a.reverse then 1 else 0)).sum).sum

/-- N4 is 10 times the floor of |20 d − 10 T| / T, and so QRS's formula, ten times the smaller of the ceiling and
the floor of |percentDark − 50| / 5, in exact arithmetic (43_mask.md R246). -/
def Obligations.BalancePenaltyIsExact : Prop :=
  ∀ dim d : Nat, 0 < dim →
    let T := dim * dim
    let percentDark : ℚ := 100 * d / T
    let x : ℚ := |percentDark - 50| / 5
    penaltyN4 dim d = 10 * ((20 * (d : Int) - 10 * (T : Int)).natAbs / T) ∧
    ((penaltyN4 dim d : Nat) : Int) = 10 * min ⌈x⌉ ⌊x⌋

/-- The bounds of 43_mask.md R254 for the symbol of any state with a legal CONFIG: every score fits SCORE. -/
def Obligations.ScoresStayInBounds : Prop :=
  ∀ (s : State) (p : Nat), s.configLegal →
    let rows := maskedRows p s
    let lines := rows ++ columnsOf s.config.dim rows
    penaltyN1 lines ≤ 2 * 177 * 175 ∧ penaltyN2 rows ≤ 3 * 176 ^ 2 ∧ penaltyN3 lines ≤ 40 * 2 * 177 * 167 ∧
    penaltyN4 s.config.dim (darkCount rows) ≤ 100 ∧
    (s.config.micro = true → patternScore p s ≤ 289) ∧ patternScore p s < 2 ^ 32

/-- MASKSEL (43_mask.md R241, R252): its errors; the first candidate in enumeration order with the best score (lowest
for Normal, highest for Micro) is applied for good and recorded with all scores; nothing else changes. -/
def Obligations.MaskselPicksTheFirstBest : Prop :=
  ∀ s : State,
    configErrorsFirst .masksel s 0x42 ∧
    (s.configLegal → (s.stage.r = false ∨ s.stage.f = false ∨ s.stage.m = true) → endsInError .masksel s 9 0x42) ∧
    (s.configLegal → s.stage.r = true → s.stage.f = true → s.stage.m = false →
      let cands := if s.config.micro then [1, 4, 6, 7] else [0, 1, 2, 3, 4, 5, 6, 7]
      ∃ best ∈ cands, ∃ t, exec .masksel s = .next t ∧
        (∀ q ∈ cands, if s.config.micro then patternScore q s ≤ patternScore best s
          else patternScore best s ≤ patternScore q s) ∧
        (∀ q ∈ cands, q < best → patternScore q s ≠ patternScore best s) ∧
        t = { s with
          mod := t.mod
          maskid :=
            { pattern := BitVec.ofNat 3 best
              alt := BitVec.ofNat 2 (if s.config.micro then [1, 4, 6, 7].idxOf best else 0) }
          score := t.score
          mscore := t.mscore
          stage := { s.stage with m := true, t := false }
          pending := none
          status := okStatus s.status } ∧
        t.score.toNat = patternScore best s ∧
        (∀ m < 8, (t.mscore.get m).toNat = if m ∈ cands then patternScore m s else 0) ∧
        ∀ r c, t.modAt r c = (s.modAt r c ^^ maskHits best s r c))

/-- MASKSEL is a function of (CONFIG, RES, MOD) (43_mask.md R253): states that read alike there, whatever else
differs, get the same mask, scores and grid. -/
def Obligations.MaskselDependsOnTheGridOnly : Prop :=
  ∀ s s' : State, s.configLegal → s'.config = s.config →
    s.stage.r = true → s.stage.f = true → s.stage.m = false →
    s'.stage.r = true → s'.stage.f = true → s'.stage.m = false →
    (∀ r c, s'.modAt r c = s.modAt r c) → (∀ r c, s'.resAt r c = s.resAt r c) →
    ∃ t t', exec .masksel s = .next t ∧ exec .masksel s' = .next t' ∧
      t'.maskid = t.maskid ∧ t'.score = t.score ∧ t'.mscore = t.mscore ∧ ∀ r c, t'.modAt r c = t.modAt r c

/-! ## FORMAT and ENCODE -/

/-- FORMAT (44_format_control.md R280-R285): its errors; bit b of the format word, built by the BCH construction,
goes to every cell 42_matrix.md R205 lists for b, and for Normal versions from 7 on bit b of the version word to
both cells R207 lists for b; every other cell stays and RES is not written. -/
def Obligations.FormatWritesItsWords : Prop :=
  ∀ s : State,
    configErrorsFirst .format s 0x50 ∧
    (s.configLegal → (s.stage.r = false ∨ s.stage.m = false) → endsInError .format s 9 0x50) ∧
    (s.configLegal → s.stage.r = true → s.stage.m = true → ∀ level, s.config.level = some level →
      let dim := s.config.dim
      let f := if s.config.micro then fmtMConstructed s.config.ver level s.maskid.alt.toNat
        else fmtNConstructed level s.maskid.pattern.toNat
      let hasVersion := s.config.micro = false ∧ 7 ≤ s.config.ver
      ∃ t, exec .format s = .next t ∧
        t = { s with
          mod := t.mod
          stage := { s.stage with t := true }
          pending := none
          status := okStatus s.status } ∧
        (∀ b < 15, ∀ k ∈ (formatCellTable s.config.micro dim).getD b [], t.modAt k.1 k.2 = f.testBit b) ∧
        (hasVersion → ∀ b < 18, ∀ k ∈ (versionCellTable dim).getD b [],
          t.modAt k.1 k.2 = (verInfoConstructed s.config.ver).testBit b) ∧
        (∀ r c, (r, c) ∉ (formatCellTable s.config.micro dim).flatten →
          (hasVersion → (r, c) ∉ (versionCellTable dim).flatten) → t.modAt r c = s.modAt r c))

/-- ENCODE is its six stages (44_format_control.md R287): where PACK raises an error, ENCODE ends with the same
error and ERROP 0x10; where PACK succeeds, no later stage fails, ENCODE leaves what PACK, ECCGEN, RESERVE,
FILL, MASKSEL and FORMAT run one after another leave, and STAGE = 0x3F. -/
def Obligations.EncodeIsItsSixStages : Prop :=
  ∀ s : State,
    (∀ t, exec .pack s = .next t → t.status.err = true → exec .encode s = .next t) ∧
    (packAccepts s →
      ∃ t1 t2 t3 t4 t5 t6, exec .pack s = .next t1 ∧ exec .eccgen t1 = .next t2 ∧ exec .reserve t2 = .next t3 ∧
        exec .fill t3 = .next t4 ∧ exec .masksel t4 = .next t5 ∧ exec .format t5 = .next t6 ∧
        exec .encode s = .next t6 ∧
        (∀ t ∈ [t1, t2, t3, t4, t5, t6], t.status = okStatus s.status) ∧
        t6.stage.toWord = 0x3F#32)

/-! ## The host's accesses -/

/-- Address bits 1:0 are ignored: an access to a is an access to the word at a − (a mod 4) (20_memory.md R65). -/
def Obligations.AddressLowBitsAreIgnored : Prop :=
  ∀ (a b : HostAddr) (w : Word) (s : State), b.toNat = a.toNat - a.toNat % 4 →
    hostAccess (.read a) s = hostAccess (.read b) s ∧ hostAccess (.write a w) s = hostAccess (.write b w) s

/-- The accesses that set ACCERR, which have no other effect, and what clears it (10_state.md R28; 20_memory.md
R66; 60_exceptions.md R307). That an access to a phantom cell of the GRID while BUSY = 1 is one of them is the model's
reading of the spec (log 18). -/
def Obligations.AccessErrorsDoNothingElse : Prop :=
  (∀ (s : State) (a : HostAddr) (w : Word), s.busy = true → regionOf (wordBase a) = .csr →
    wordBase a ∉ [0x08, 0x0C] → onlySetsAccerr s (hostWrite a w s)) ∧
  (∀ (s : State) (a : HostAddr) (w : Word), s.busy = true → regionOf (wordBase a) ∈ [Region.buffer, .rom, .grid] →
    onlySetsAccerr s (hostWrite a w s) ∧ readRefused s (hostRead a s)) ∧
  (∀ (s : State) (a : HostAddr) (w : Word), regionOf (wordBase a) ∈ [Region.rom, .unmapped] →
    onlySetsAccerr s (hostWrite a w s)) ∧
  (∀ (s : State) (a : HostAddr) (w : Word), regionOf (wordBase a) = .csr →
    wordBase a ∉ [0x04, 0x08, 0x0C, 0x10, 0x14, 0x18, 0x24, 0x40, 0x44, 0x48, 0x4C] →
    onlySetsAccerr s (hostWrite a w s)) ∧
  (∀ (s : State) (acc : Access), s.status.accerr = true → (hostAccess acc s).status.accerr = false →
    ∃ a w, acc = .write a w ∧
      ((wordBase a = 0x08 ∧ w.getLsbD 3 = true) ∨ (wordBase a = 0x0C ∧ w.getLsbD 31 = true))) ∧
  (∀ (i : Instr) (s t : State), exec i s = .next t → t.status.accerr = s.status.accerr)

/-- No read has a side effect: it changes the word read, and ACCERR if it is refused (20_memory.md R66, R67);
a read of an unmapped address or a reserved register returns 0 and changes nothing else (R66;
10_state.md R45). -/
def Obligations.ReadsHaveNoSideEffect : Prop :=
  (∀ (s : State) (a : HostAddr), s.busy = false ∨ regionOf (wordBase a) ∈ [Region.csr, .unmapped] →
    hostRead a s = { s with readData := (hostRead a s).readData }) ∧
  (∀ (s : State) (a : HostAddr), regionOf (wordBase a) = .unmapped ∨
      (regionOf (wordBase a) = .csr ∧ csrAt (wordBase a) = none) →
    hostRead a s = { s with readData := 0#32 })

/-- A buffer word written while BUSY = 0 is stored little-endian, reads back, and changes nothing else
(20_memory.md R62, R67). -/
def Obligations.BufferWordReadsBack : Prop :=
  ∀ (s : State) (a : HostAddr) (w : Word), s.busy = false → regionOf (wordBase a) = .buffer →
    let t := hostAccess (.write a w) s
    t = { s with mem := t.mem } ∧
    t.hostReads a = w ∧
    (∀ k < 4, t.byteAt (wordBase a + k) = w.extractLsb' (8 * k) 8) ∧
    sameBytesOutside s t (wordBase a) 4

/-- The byte of cell (r, c) at 0x10000 + 256 r + c is its RES and MOD bits, and a phantom cell reads 0. A GRID word
written while BUSY = 0 stores bits 1:0 of each real cell's byte, and a read of the word returns these bits, with
0 in bits 7:2 and for phantom cells; bits 7:2 and phantom cells ignore the write, without ACCERR, and nothing
else changes (20_memory.md R67, R68). That a word of real and phantom cells is taken byte by byte is the
model's reading of the spec (log 18). -/
def Obligations.GridWordReadsBack : Prop :=
  (∀ (s : State) (r c : Nat), r < 256 → c < 256 → s.byteAt (0x10000 + 256 * r + c) =
    if r < 177 ∧ c < 177 then 0#6 ++ BitVec.ofBool (s.resAt r c) ++ BitVec.ofBool (s.modAt r c) else 0#8) ∧
  ∀ (s : State) (a : HostAddr) (w : Word), s.busy = false → regionOf (wordBase a) = .grid →
    let t := hostAccess (.write a w) s
    t = { s with mod := t.mod, res := t.res } ∧
    (∀ k < 4,
      let byte := if (wordBase a + k - 0x10000) / 256 < 177 ∧ (wordBase a + k - 0x10000) % 256 < 177 then
          w.extractLsb' (8 * k) 8 &&& 0x03#8
        else 0#8
      t.byteAt (wordBase a + k) = byte ∧ (t.hostReads a).extractLsb' (8 * k) 8 = byte) ∧
    sameBytesOutside s t (wordBase a) 4

/-- What the host reads. Whatever BUSY is, a register returns its fields at their bits, reserved bits 0: ID, STATUS,
CTRL, CONFIG, PLEN, STAGE, SEGBITS, MODEUSED, MASKID, SCORE, DIM (the side of the symbol where the version is
legal, else 0), NDCW, NCW, GFRES, ARG0 to ARG3, MSCORE0 to MSCORE7 (10_state.md R22, R24, R30-R44; 20_memory.md
R69). While BUSY = 0 a word of PBUF, DBUF, CWBUF, EXP, LOG and GEN returns its four bytes, the lowest address in
bits 7:0, with 0 for the bytes of GEN that are no coefficient, and a word of the GRID the RES and MOD bits of
its four cells (R61, R62, R68, R79). -/
def Obligations.StatusCtrlAndDimRead : Prop :=
  ∀ s : State,
    let st := s.hostReads 0x08#20
    (st.getLsbD 0 = s.pending.isSome ∧ st.getLsbD 1 = s.status.done ∧ st.getLsbD 2 = s.status.err ∧
      st.getLsbD 3 = s.status.accerr ∧ st.extractLsb' 4 4 = 0#4 ∧ st.extractLsb' 8 4 = s.status.errcode ∧
      st.extractLsb' 12 4 = 0#4 ∧ st.extractLsb' 16 8 = s.status.errop ∧ st.extractLsb' 24 8 = 0#8) ∧
    s.hostReads 0x00#20 = 0x51524331#32 ∧
    (s.hostReads 0x0C#20).toNat = (if s.irqEn then 1 else 0) ∧
    (s.hostReads 0x10#20).toNat = (if s.config.micro then 1 else 0) + 2 ^ 8 * s.config.version.toNat +
      2 ^ 16 * s.config.ecc.toNat + 2 ^ 24 * s.config.mode.toNat ∧
    (s.hostReads 0x14#20).toNat = s.plen.toNat ∧
    (s.hostReads 0x18#20).toNat = (if s.stage.p then 1 else 0) + (if s.stage.e then 2 else 0) +
      (if s.stage.r then 4 else 0) + (if s.stage.f then 8 else 0) + (if s.stage.m then 16 else 0) +
      (if s.stage.t then 32 else 0) ∧
    (s.hostReads 0x1C#20).toNat = s.segbits.toNat ∧
    (s.hostReads 0x20#20).toNat = s.modeused.toNat ∧
    (s.hostReads 0x24#20).toNat = s.maskid.pattern.toNat + 2 ^ 8 * s.maskid.alt.toNat ∧
    s.hostReads 0x28#20 = s.score ∧
    (let v := s.config.version.toNat
     (s.hostReads 0x2C#20).toNat =
      if s.config.micro then (if 1 ≤ v ∧ v ≤ 4 then 9 + 2 * v else 0) else if 1 ≤ v ∧ v ≤ 40 then 17 + 4 * v else 0) ∧
    (s.hostReads 0x30#20).toNat = s.ndcw.toNat ∧
    (s.hostReads 0x34#20).toNat = s.ncw.toNat ∧
    (s.hostReads 0x38#20).toNat = s.gfres.toNat ∧
    s.hostReads 0x40#20 = s.arg0 ∧ s.hostReads 0x44#20 = s.arg1 ∧ s.hostReads 0x48#20 = s.arg2 ∧
    s.hostReads 0x4C#20 = s.arg3 ∧
    s.hostReads 0x60#20 = s.mscore.m0 ∧ s.hostReads 0x64#20 = s.mscore.m1 ∧ s.hostReads 0x68#20 = s.mscore.m2 ∧
    s.hostReads 0x6C#20 = s.mscore.m3 ∧ s.hostReads 0x70#20 = s.mscore.m4 ∧ s.hostReads 0x74#20 = s.mscore.m5 ∧
    s.hostReads 0x78#20 = s.mscore.m6 ∧ s.hostReads 0x7C#20 = s.mscore.m7 ∧
    (s.busy = false → ∀ k < 4,
      let byte := fun (base i : Nat) => (s.hostReads (BitVec.ofNat 20 (base + 4 * i))).extractLsb' (8 * k) 8
      (∀ i < 2048, byte 0x02000 i = s.pbuf (4 * i + k)) ∧
      (∀ i < 1024, byte 0x04000 i = s.dbuf (4 * i + k) ∧ byte 0x05000 i = s.cwbuf (4 * i + k)) ∧
      (∀ i < 64, byte 0x06000 i = expRom (4 * i + k) ∧ byte 0x06100 i = logRom (4 * i + k)) ∧
      (∀ n < 32, ∀ i < 8, byte (0x06200 + 32 * n) i =
        if 1 ≤ n ∧ n ≤ 30 ∧ 4 * i + k ≤ n then genRom n (4 * i + k) else 0#8) ∧
      (∀ r < 256, ∀ i < 64, byte (0x10000 + 256 * r) i =
        if r < 177 ∧ 4 * i + k < 177 then
          0#6 ++ BitVec.ofBool (s.resAt r (4 * i + k)) ++ BitVec.ofBool (s.modAt r (4 * i + k))
        else 0#8))

/-- The read-write registers keep their fields and drop reserved bits: CONFIG, PLEN, STAGE, MASKID and ARG0..ARG3
read back what was written, masked, and no other register changes but STAGE at a CONFIG write
(10_state.md R21, R31, R33, R34, R37, R44; 70_reset_and_hazards.md R349). -/
def Obligations.RegistersKeepTheirFields : Prop :=
  ∀ (s : State) (w : Word), s.busy = false →
    (let t := hostAccess (.write 0x10#20 w) s
     t = { s with config := t.config, stage := t.stage } ∧ t.hostReads 0x10#20 = w &&& 0x07073F01#32 ∧
       t.hostReads 0x18#20 = 0#32) ∧
    (let t := hostAccess (.write 0x14#20 w) s
     t = { s with plen := t.plen } ∧ t.hostReads 0x14#20 = w &&& 0x0000FFFF#32) ∧
    (let t := hostAccess (.write 0x18#20 w) s
     t = { s with stage := t.stage } ∧ t.hostReads 0x18#20 = w &&& 0x0000003F#32) ∧
    (let t := hostAccess (.write 0x24#20 w) s
     t = { s with maskid := t.maskid } ∧ t.hostReads 0x24#20 = w &&& 0x00000307#32) ∧
    (let t := hostAccess (.write 0x40#20 w) s
     t = { s with arg0 := w } ∧ t.hostReads 0x40#20 = w) ∧
    (let t := hostAccess (.write 0x44#20 w) s
     t = { s with arg1 := w } ∧ t.hostReads 0x44#20 = w) ∧
    (let t := hostAccess (.write 0x48#20 w) s
     t = { s with arg2 := w } ∧ t.hostReads 0x48#20 = w) ∧
    (let t := hostAccess (.write 0x4C#20 w) s
     t = { s with arg3 := w } ∧ t.hostReads 0x4C#20 = w)

/-- A write of csr.CMD is accepted while BUSY = 0 and dropped with ACCERR while BUSY = 1 (10_state.md R23). A write
of csr.STATUS: bit 1 clears DONE, ERR, ERRCODE and ERROP together, bit 3 clears ACCERR, nothing else changes,
also while BUSY = 1 (R26, R28). A write of csr.CTRL without bit 31 sets IRQ_EN and nothing else, also while
BUSY = 1 (R30). -/
def Obligations.CmdStatusAndCtrlWrites : Prop :=
  (∀ (s : State) (a : HostAddr) (w : Word), wordBase a = 0x04 →
    (s.busy = false → hostAccess (.write a w) s = { s with
      cmd := w
      pending := some w
      status := { s.status with done := false, err := false, errcode := 0#4, errop := 0#8 } }) ∧
    (s.busy = true → onlySetsAccerr s (hostAccess (.write a w) s))) ∧
  (∀ s : State, s.readWord 0x04#20 = s.cmd) ∧
  (∀ (s : State) (a : HostAddr) (w : Word), wordBase a = 0x08 →
    hostAccess (.write a w) s = { s with
      status :=
        { done := s.status.done && !w.getLsbD 1
          err := s.status.err && !w.getLsbD 1
          accerr := s.status.accerr && !w.getLsbD 3
          errcode := if w.getLsbD 1 then 0#4 else s.status.errcode
          errop := if w.getLsbD 1 then 0#8 else s.status.errop } }) ∧
  (∀ (s : State) (a : HostAddr) (w : Word), wordBase a = 0x0C → w.getLsbD 31 = false →
    hostAccess (.write a w) s = { s with irqEn := w.getLsbD 0 })

/-- Soft reset, a CTRL write with bit 31: the latch is emptied, every register reads as after reset, and every
byte of storage stays; also while BUSY = 1 (70_reset_and_hazards.md R344; 10_state.md R30). -/
def Obligations.SoftResetKeepsStorage : Prop :=
  ∀ (s : State) (a : HostAddr) (w : Word), wordBase a = 0x0C → w.getLsbD 31 = true →
    let t := hostAccess (.write a w) s
    t.pending = none ∧ (∀ k, csrRead k t = csrRead k State.reset) ∧ ∀ b, t.byteAt b = s.byteAt b

/-- Every register reads its reset value after reset, the latch is empty and irq is 0: in the reset state, and
after a hardware reset of any state (10_state.md R21; 70_reset_and_hazards.md R340). -/
def Obligations.RegistersReadTheirResetValues : Prop :=
  ∀ s t : State, t = State.reset ∨ t = hardwareReset s →
    (∀ k < 64, t.readWord (BitVec.ofNat 20 (4 * k)) = if k = 0 then 0x51524331#32 else 0#32) ∧
    t.pending = none ∧ t.busy = false ∧ t.irq = false

/-! ## Invariants -/

/-- Every step keeps the machine invariant: the status fields fit together, the buffer memory and both planes
keep their canonical form, MODEUSED holds a mode (10_state.md R26, R27, R36, R50; 60_exceptions.md R301). -/
def Obligations.StepKeepsTheMachineInvariant : Prop :=
  ∀ s t : State, s.Inv → step s = .next t → t.Inv

/-- The state after reset meets the machine invariant. -/
def Obligations.ResetMeetsTheMachineInvariant : Prop := State.reset.Inv ∧ State.reset.stage.ordered

/-- The order of the stage bits is kept by every step that is not a host write of csr.STAGE: E implies P, F implies
E and R, M implies F, T implies M (70_reset_and_hazards.md R351). -/
def Obligations.StepKeepsTheStageOrder : Prop :=
  ∀ s t : State, s.stage.ordered → ¬ s.nextWritesStage → step s = .next t → t.stage.ordered

/-- While STAGE.R = 1, RES is the plane RESERVE draws for CONFIG: kept by every step that is not a host write of
csr.STAGE or of the GRID (70_reset_and_hazards.md R351). -/
def Obligations.StepKeepsTheReservation : Prop :=
  ∀ s t : State, s.reservationValid → ¬ s.nextWritesStage → ¬ s.nextWritesGrid → step s = .next t →
    t.reservationValid

/-! ## The bits of the segment -/

/-- The segment PACK encodes, bit by bit. The payload is PBUF[0..PLEN−1] and the mode the one MODE names, or what AUTO
finds (41_packer.md R160, R161). The count width is the one 20_memory.md R85 lists, none for a mode the symbol
does not support. The segment of a payload PACK accepts is the mode's indicator (R86; 41_packer.md R167), the
count n most significant bit first (R168), and the payload: the decimal value of every group of three digits in
10 bits, of a last group of two in 7 and of one in 4 (R169); 45 a + b in 11 bits for every pair of characters
and a last single one in 6 (R170); eight bits a byte (R171). -/
def Obligations.SegmentBitsFollowTheRules : Prop :=
  let widths := fun (micro : Bool) (ver : Nat) =>
    if micro then ([[3], [4, 3], [5, 4, 4], [6, 5, 5]] : List (List Nat)).getD (ver - 1) []
    else if ver ≤ 9 then [10, 9, 8] else if ver ≤ 26 then [12, 11, 16] else [14, 13, 16]
  let field := fun (v w : Nat) => (List.range w).map fun k => v / 2 ^ (w - 1 - k) % 2 == 1
  (∀ (c : SymbolConfig) (mode : Mode), c.versionOK = true →
    countBits c.micro c.ver mode = (widths c.micro c.ver)[mode.code.toNat]?) ∧
  ∀ s : State,
    let n := s.plen.toNat
    let payload := (List.range n).map s.pbuf
    packPayload s = payload ∧
    (s.config.mode = 0#3 → packMode s = .numeric) ∧ (s.config.mode = 1#3 → packMode s = .alphanumeric) ∧
    (s.config.mode = 2#3 → packMode s = .byte) ∧ (s.config.mode = 7#3 → packMode s = detectMode payload) ∧
    (packAccepts s →
      let m := (packMode s).code.toNat
      let indicator := if s.config.micro then field m (s.config.ver - 1) else field (2 ^ m) 4
      let count := field n ((widths s.config.micro s.config.ver).getD m 0)
      let value := fun (i : Nat) => (alnum (payload.getD i 0#8)).getD 0
      let data :=
        match packMode s with
        | .numeric => (List.range ((n + 2) / 3)).flatMap fun i =>
            let digits := (payload.drop (3 * i)).take 3
            field (digits.foldl (fun v b => 10 * v + (b.toNat - 0x30)) 0)
              (if digits.length = 3 then 10 else if digits.length = 2 then 7 else 4)
        | .alphanumeric => (List.range ((n + 1) / 2)).flatMap fun i =>
            if 2 * i + 1 < n then field (45 * value (2 * i) + value (2 * i + 1)) 11 else field (value (2 * i)) 6
        | .byte => payload.flatMap fun b => field b.toNat 8
      packSegment s = indicator ++ count ++ data)
end

