-- ==== Sys2Proof/Laws/State.lean ====
section
/-!
SUPPORT. Sys2Proof/Laws/State.lean: what each shared update of the state leaves in each field, true by rfl,
for simp.
-/

namespace Sys2Proof.Machine

/-! ### completeOk -/

@[simp] theorem completeOk_cmd (s : State) : (completeOk s).cmd = s.cmd := rfl
@[simp] theorem completeOk_status (s : State) : (completeOk s).status = s.status.completedOk := rfl
@[simp] theorem completeOk_irqEn (s : State) : (completeOk s).irqEn = s.irqEn := rfl
@[simp] theorem completeOk_config (s : State) : (completeOk s).config = s.config := rfl
@[simp] theorem completeOk_plen (s : State) : (completeOk s).plen = s.plen := rfl
@[simp] theorem completeOk_stage (s : State) : (completeOk s).stage = s.stage := rfl
@[simp] theorem completeOk_segbits (s : State) : (completeOk s).segbits = s.segbits := rfl
@[simp] theorem completeOk_modeused (s : State) : (completeOk s).modeused = s.modeused := rfl
@[simp] theorem completeOk_maskid (s : State) : (completeOk s).maskid = s.maskid := rfl
@[simp] theorem completeOk_score (s : State) : (completeOk s).score = s.score := rfl
@[simp] theorem completeOk_mscore (s : State) : (completeOk s).mscore = s.mscore := rfl
@[simp] theorem completeOk_ndcw (s : State) : (completeOk s).ndcw = s.ndcw := rfl
@[simp] theorem completeOk_ncw (s : State) : (completeOk s).ncw = s.ncw := rfl
@[simp] theorem completeOk_gfres (s : State) : (completeOk s).gfres = s.gfres := rfl
@[simp] theorem completeOk_arg0 (s : State) : (completeOk s).arg0 = s.arg0 := rfl
@[simp] theorem completeOk_arg1 (s : State) : (completeOk s).arg1 = s.arg1 := rfl
@[simp] theorem completeOk_arg2 (s : State) : (completeOk s).arg2 = s.arg2 := rfl
@[simp] theorem completeOk_arg3 (s : State) : (completeOk s).arg3 = s.arg3 := rfl
@[simp] theorem completeOk_pending (s : State) : (completeOk s).pending = none := rfl
@[simp] theorem completeOk_mem (s : State) : (completeOk s).mem = s.mem := rfl
@[simp] theorem completeOk_mod (s : State) : (completeOk s).mod = s.mod := rfl
@[simp] theorem completeOk_res (s : State) : (completeOk s).res = s.res := rfl
@[simp] theorem completeOk_epoch (s : State) : (completeOk s).epoch = s.epoch := rfl
@[simp] theorem completeOk_agenda (s : State) : (completeOk s).agenda = s.agenda := rfl
@[simp] theorem completeOk_readData (s : State) : (completeOk s).readData = s.readData := rfl

/-! ### completeError -/

@[simp] theorem completeError_cmd (e : CmdError) (op : BitVec 8) (s : State) : (completeError e op s).cmd = s.cmd := rfl
@[simp] theorem completeError_status (e : CmdError) (op : BitVec 8) (s : State) : (completeError e op s).status = s.status.completedError e op := rfl
@[simp] theorem completeError_irqEn (e : CmdError) (op : BitVec 8) (s : State) : (completeError e op s).irqEn = s.irqEn := rfl
@[simp] theorem completeError_config (e : CmdError) (op : BitVec 8) (s : State) : (completeError e op s).config = s.config := rfl
@[simp] theorem completeError_plen (e : CmdError) (op : BitVec 8) (s : State) : (completeError e op s).plen = s.plen := rfl
@[simp] theorem completeError_stage (e : CmdError) (op : BitVec 8) (s : State) : (completeError e op s).stage = s.stage := rfl
@[simp] theorem completeError_segbits (e : CmdError) (op : BitVec 8) (s : State) : (completeError e op s).segbits = s.segbits := rfl
@[simp] theorem completeError_modeused (e : CmdError) (op : BitVec 8) (s : State) : (completeError e op s).modeused = s.modeused := rfl
@[simp] theorem completeError_maskid (e : CmdError) (op : BitVec 8) (s : State) : (completeError e op s).maskid = s.maskid := rfl
@[simp] theorem completeError_score (e : CmdError) (op : BitVec 8) (s : State) : (completeError e op s).score = s.score := rfl
@[simp] theorem completeError_mscore (e : CmdError) (op : BitVec 8) (s : State) : (completeError e op s).mscore = s.mscore := rfl
@[simp] theorem completeError_ndcw (e : CmdError) (op : BitVec 8) (s : State) : (completeError e op s).ndcw = s.ndcw := rfl
@[simp] theorem completeError_ncw (e : CmdError) (op : BitVec 8) (s : State) : (completeError e op s).ncw = s.ncw := rfl
@[simp] theorem completeError_gfres (e : CmdError) (op : BitVec 8) (s : State) : (completeError e op s).gfres = s.gfres := rfl
@[simp] theorem completeError_arg0 (e : CmdError) (op : BitVec 8) (s : State) : (completeError e op s).arg0 = s.arg0 := rfl
@[simp] theorem completeError_arg1 (e : CmdError) (op : BitVec 8) (s : State) : (completeError e op s).arg1 = s.arg1 := rfl
@[simp] theorem completeError_arg2 (e : CmdError) (op : BitVec 8) (s : State) : (completeError e op s).arg2 = s.arg2 := rfl
@[simp] theorem completeError_arg3 (e : CmdError) (op : BitVec 8) (s : State) : (completeError e op s).arg3 = s.arg3 := rfl
@[simp] theorem completeError_pending (e : CmdError) (op : BitVec 8) (s : State) : (completeError e op s).pending = none := rfl
@[simp] theorem completeError_mem (e : CmdError) (op : BitVec 8) (s : State) : (completeError e op s).mem = s.mem := rfl
@[simp] theorem completeError_mod (e : CmdError) (op : BitVec 8) (s : State) : (completeError e op s).mod = s.mod := rfl
@[simp] theorem completeError_res (e : CmdError) (op : BitVec 8) (s : State) : (completeError e op s).res = s.res := rfl
@[simp] theorem completeError_epoch (e : CmdError) (op : BitVec 8) (s : State) : (completeError e op s).epoch = s.epoch := rfl
@[simp] theorem completeError_agenda (e : CmdError) (op : BitVec 8) (s : State) : (completeError e op s).agenda = s.agenda := rfl
@[simp] theorem completeError_readData (e : CmdError) (op : BitVec 8) (s : State) : (completeError e op s).readData = s.readData := rfl

/-! ### accessError -/

@[simp] theorem accessError_cmd (s : State) : (s.accessError).cmd = s.cmd := rfl
@[simp] theorem accessError_status (s : State) : (s.accessError).status = { s.status with accerr := true } := rfl
@[simp] theorem accessError_irqEn (s : State) : (s.accessError).irqEn = s.irqEn := rfl
@[simp] theorem accessError_config (s : State) : (s.accessError).config = s.config := rfl
@[simp] theorem accessError_plen (s : State) : (s.accessError).plen = s.plen := rfl
@[simp] theorem accessError_stage (s : State) : (s.accessError).stage = s.stage := rfl
@[simp] theorem accessError_segbits (s : State) : (s.accessError).segbits = s.segbits := rfl
@[simp] theorem accessError_modeused (s : State) : (s.accessError).modeused = s.modeused := rfl
@[simp] theorem accessError_maskid (s : State) : (s.accessError).maskid = s.maskid := rfl
@[simp] theorem accessError_score (s : State) : (s.accessError).score = s.score := rfl
@[simp] theorem accessError_mscore (s : State) : (s.accessError).mscore = s.mscore := rfl
@[simp] theorem accessError_ndcw (s : State) : (s.accessError).ndcw = s.ndcw := rfl
@[simp] theorem accessError_ncw (s : State) : (s.accessError).ncw = s.ncw := rfl
@[simp] theorem accessError_gfres (s : State) : (s.accessError).gfres = s.gfres := rfl
@[simp] theorem accessError_arg0 (s : State) : (s.accessError).arg0 = s.arg0 := rfl
@[simp] theorem accessError_arg1 (s : State) : (s.accessError).arg1 = s.arg1 := rfl
@[simp] theorem accessError_arg2 (s : State) : (s.accessError).arg2 = s.arg2 := rfl
@[simp] theorem accessError_arg3 (s : State) : (s.accessError).arg3 = s.arg3 := rfl
@[simp] theorem accessError_pending (s : State) : (s.accessError).pending = s.pending := rfl
@[simp] theorem accessError_mem (s : State) : (s.accessError).mem = s.mem := rfl
@[simp] theorem accessError_mod (s : State) : (s.accessError).mod = s.mod := rfl
@[simp] theorem accessError_res (s : State) : (s.accessError).res = s.res := rfl
@[simp] theorem accessError_epoch (s : State) : (s.accessError).epoch = s.epoch := rfl
@[simp] theorem accessError_agenda (s : State) : (s.accessError).agenda = s.agenda := rfl
@[simp] theorem accessError_readData (s : State) : (s.accessError).readData = s.readData := rfl

/-! ### acceptCommand -/

@[simp] theorem acceptCommand_cmd (w : Word) (s : State) : (acceptCommand w s).cmd = w := rfl
@[simp] theorem acceptCommand_status (w : Word) (s : State) : (acceptCommand w s).status = s.status.cleared := rfl
@[simp] theorem acceptCommand_irqEn (w : Word) (s : State) : (acceptCommand w s).irqEn = s.irqEn := rfl
@[simp] theorem acceptCommand_config (w : Word) (s : State) : (acceptCommand w s).config = s.config := rfl
@[simp] theorem acceptCommand_plen (w : Word) (s : State) : (acceptCommand w s).plen = s.plen := rfl
@[simp] theorem acceptCommand_stage (w : Word) (s : State) : (acceptCommand w s).stage = s.stage := rfl
@[simp] theorem acceptCommand_segbits (w : Word) (s : State) : (acceptCommand w s).segbits = s.segbits := rfl
@[simp] theorem acceptCommand_modeused (w : Word) (s : State) : (acceptCommand w s).modeused = s.modeused := rfl
@[simp] theorem acceptCommand_maskid (w : Word) (s : State) : (acceptCommand w s).maskid = s.maskid := rfl
@[simp] theorem acceptCommand_score (w : Word) (s : State) : (acceptCommand w s).score = s.score := rfl
@[simp] theorem acceptCommand_mscore (w : Word) (s : State) : (acceptCommand w s).mscore = s.mscore := rfl
@[simp] theorem acceptCommand_ndcw (w : Word) (s : State) : (acceptCommand w s).ndcw = s.ndcw := rfl
@[simp] theorem acceptCommand_ncw (w : Word) (s : State) : (acceptCommand w s).ncw = s.ncw := rfl
@[simp] theorem acceptCommand_gfres (w : Word) (s : State) : (acceptCommand w s).gfres = s.gfres := rfl
@[simp] theorem acceptCommand_arg0 (w : Word) (s : State) : (acceptCommand w s).arg0 = s.arg0 := rfl
@[simp] theorem acceptCommand_arg1 (w : Word) (s : State) : (acceptCommand w s).arg1 = s.arg1 := rfl
@[simp] theorem acceptCommand_arg2 (w : Word) (s : State) : (acceptCommand w s).arg2 = s.arg2 := rfl
@[simp] theorem acceptCommand_arg3 (w : Word) (s : State) : (acceptCommand w s).arg3 = s.arg3 := rfl
@[simp] theorem acceptCommand_pending (w : Word) (s : State) : (acceptCommand w s).pending = some w := rfl
@[simp] theorem acceptCommand_mem (w : Word) (s : State) : (acceptCommand w s).mem = s.mem := rfl
@[simp] theorem acceptCommand_mod (w : Word) (s : State) : (acceptCommand w s).mod = s.mod := rfl
@[simp] theorem acceptCommand_res (w : Word) (s : State) : (acceptCommand w s).res = s.res := rfl
@[simp] theorem acceptCommand_epoch (w : Word) (s : State) : (acceptCommand w s).epoch = s.epoch := rfl
@[simp] theorem acceptCommand_agenda (w : Word) (s : State) : (acceptCommand w s).agenda = s.agenda := rfl
@[simp] theorem acceptCommand_readData (w : Word) (s : State) : (acceptCommand w s).readData = s.readData := rfl

/-! ### store -/

@[simp] theorem store_cmd (s : State) (base : Nat) (bs : List Byte) : (s.store base bs).cmd = s.cmd := rfl
@[simp] theorem store_status (s : State) (base : Nat) (bs : List Byte) : (s.store base bs).status = s.status := rfl
@[simp] theorem store_irqEn (s : State) (base : Nat) (bs : List Byte) : (s.store base bs).irqEn = s.irqEn := rfl
@[simp] theorem store_config (s : State) (base : Nat) (bs : List Byte) : (s.store base bs).config = s.config := rfl
@[simp] theorem store_plen (s : State) (base : Nat) (bs : List Byte) : (s.store base bs).plen = s.plen := rfl
@[simp] theorem store_stage (s : State) (base : Nat) (bs : List Byte) : (s.store base bs).stage = s.stage := rfl
@[simp] theorem store_segbits (s : State) (base : Nat) (bs : List Byte) : (s.store base bs).segbits = s.segbits := rfl
@[simp] theorem store_modeused (s : State) (base : Nat) (bs : List Byte) : (s.store base bs).modeused = s.modeused := rfl
@[simp] theorem store_maskid (s : State) (base : Nat) (bs : List Byte) : (s.store base bs).maskid = s.maskid := rfl
@[simp] theorem store_score (s : State) (base : Nat) (bs : List Byte) : (s.store base bs).score = s.score := rfl
@[simp] theorem store_mscore (s : State) (base : Nat) (bs : List Byte) : (s.store base bs).mscore = s.mscore := rfl
@[simp] theorem store_ndcw (s : State) (base : Nat) (bs : List Byte) : (s.store base bs).ndcw = s.ndcw := rfl
@[simp] theorem store_ncw (s : State) (base : Nat) (bs : List Byte) : (s.store base bs).ncw = s.ncw := rfl
@[simp] theorem store_gfres (s : State) (base : Nat) (bs : List Byte) : (s.store base bs).gfres = s.gfres := rfl
@[simp] theorem store_arg0 (s : State) (base : Nat) (bs : List Byte) : (s.store base bs).arg0 = s.arg0 := rfl
@[simp] theorem store_arg1 (s : State) (base : Nat) (bs : List Byte) : (s.store base bs).arg1 = s.arg1 := rfl
@[simp] theorem store_arg2 (s : State) (base : Nat) (bs : List Byte) : (s.store base bs).arg2 = s.arg2 := rfl
@[simp] theorem store_arg3 (s : State) (base : Nat) (bs : List Byte) : (s.store base bs).arg3 = s.arg3 := rfl
@[simp] theorem store_pending (s : State) (base : Nat) (bs : List Byte) : (s.store base bs).pending = s.pending := rfl
@[simp] theorem store_mem (s : State) (base : Nat) (bs : List Byte) : (s.store base bs).mem = s.mem.store base bs := rfl
@[simp] theorem store_mod (s : State) (base : Nat) (bs : List Byte) : (s.store base bs).mod = s.mod := rfl
@[simp] theorem store_res (s : State) (base : Nat) (bs : List Byte) : (s.store base bs).res = s.res := rfl
@[simp] theorem store_epoch (s : State) (base : Nat) (bs : List Byte) : (s.store base bs).epoch = s.epoch := rfl
@[simp] theorem store_agenda (s : State) (base : Nat) (bs : List Byte) : (s.store base bs).agenda = s.agenda := rfl
@[simp] theorem store_readData (s : State) (base : Nat) (bs : List Byte) : (s.store base bs).readData = s.readData := rfl

/-! ### drawMod -/

@[simp] theorem drawMod_cmd (s : State) (ds : List Draw) : (s.drawMod ds).cmd = s.cmd := rfl
@[simp] theorem drawMod_status (s : State) (ds : List Draw) : (s.drawMod ds).status = s.status := rfl
@[simp] theorem drawMod_irqEn (s : State) (ds : List Draw) : (s.drawMod ds).irqEn = s.irqEn := rfl
@[simp] theorem drawMod_config (s : State) (ds : List Draw) : (s.drawMod ds).config = s.config := rfl
@[simp] theorem drawMod_plen (s : State) (ds : List Draw) : (s.drawMod ds).plen = s.plen := rfl
@[simp] theorem drawMod_stage (s : State) (ds : List Draw) : (s.drawMod ds).stage = s.stage := rfl
@[simp] theorem drawMod_segbits (s : State) (ds : List Draw) : (s.drawMod ds).segbits = s.segbits := rfl
@[simp] theorem drawMod_modeused (s : State) (ds : List Draw) : (s.drawMod ds).modeused = s.modeused := rfl
@[simp] theorem drawMod_maskid (s : State) (ds : List Draw) : (s.drawMod ds).maskid = s.maskid := rfl
@[simp] theorem drawMod_score (s : State) (ds : List Draw) : (s.drawMod ds).score = s.score := rfl
@[simp] theorem drawMod_mscore (s : State) (ds : List Draw) : (s.drawMod ds).mscore = s.mscore := rfl
@[simp] theorem drawMod_ndcw (s : State) (ds : List Draw) : (s.drawMod ds).ndcw = s.ndcw := rfl
@[simp] theorem drawMod_ncw (s : State) (ds : List Draw) : (s.drawMod ds).ncw = s.ncw := rfl
@[simp] theorem drawMod_gfres (s : State) (ds : List Draw) : (s.drawMod ds).gfres = s.gfres := rfl
@[simp] theorem drawMod_arg0 (s : State) (ds : List Draw) : (s.drawMod ds).arg0 = s.arg0 := rfl
@[simp] theorem drawMod_arg1 (s : State) (ds : List Draw) : (s.drawMod ds).arg1 = s.arg1 := rfl
@[simp] theorem drawMod_arg2 (s : State) (ds : List Draw) : (s.drawMod ds).arg2 = s.arg2 := rfl
@[simp] theorem drawMod_arg3 (s : State) (ds : List Draw) : (s.drawMod ds).arg3 = s.arg3 := rfl
@[simp] theorem drawMod_pending (s : State) (ds : List Draw) : (s.drawMod ds).pending = s.pending := rfl
@[simp] theorem drawMod_mem (s : State) (ds : List Draw) : (s.drawMod ds).mem = s.mem := rfl
@[simp] theorem drawMod_mod (s : State) (ds : List Draw) : (s.drawMod ds).mod = s.mod.draw ds := rfl
@[simp] theorem drawMod_res (s : State) (ds : List Draw) : (s.drawMod ds).res = s.res := rfl
@[simp] theorem drawMod_epoch (s : State) (ds : List Draw) : (s.drawMod ds).epoch = s.epoch := rfl
@[simp] theorem drawMod_agenda (s : State) (ds : List Draw) : (s.drawMod ds).agenda = s.agenda := rfl
@[simp] theorem drawMod_readData (s : State) (ds : List Draw) : (s.drawMod ds).readData = s.readData := rfl

/-! ### gridStore -/

@[simp] theorem gridStore_cmd (b : Nat) (w : Word) (s : State) : (gridStore b w s).cmd = s.cmd := by rw [gridStore]
@[simp] theorem gridStore_status (b : Nat) (w : Word) (s : State) : (gridStore b w s).status = s.status := by rw [gridStore]
@[simp] theorem gridStore_irqEn (b : Nat) (w : Word) (s : State) : (gridStore b w s).irqEn = s.irqEn := by rw [gridStore]
@[simp] theorem gridStore_config (b : Nat) (w : Word) (s : State) : (gridStore b w s).config = s.config := by rw [gridStore]
@[simp] theorem gridStore_plen (b : Nat) (w : Word) (s : State) : (gridStore b w s).plen = s.plen := by rw [gridStore]
@[simp] theorem gridStore_stage (b : Nat) (w : Word) (s : State) : (gridStore b w s).stage = s.stage := by rw [gridStore]
@[simp] theorem gridStore_segbits (b : Nat) (w : Word) (s : State) : (gridStore b w s).segbits = s.segbits := by rw [gridStore]
@[simp] theorem gridStore_modeused (b : Nat) (w : Word) (s : State) : (gridStore b w s).modeused = s.modeused := by rw [gridStore]
@[simp] theorem gridStore_maskid (b : Nat) (w : Word) (s : State) : (gridStore b w s).maskid = s.maskid := by rw [gridStore]
@[simp] theorem gridStore_score (b : Nat) (w : Word) (s : State) : (gridStore b w s).score = s.score := by rw [gridStore]
@[simp] theorem gridStore_mscore (b : Nat) (w : Word) (s : State) : (gridStore b w s).mscore = s.mscore := by rw [gridStore]
@[simp] theorem gridStore_ndcw (b : Nat) (w : Word) (s : State) : (gridStore b w s).ndcw = s.ndcw := by rw [gridStore]
@[simp] theorem gridStore_ncw (b : Nat) (w : Word) (s : State) : (gridStore b w s).ncw = s.ncw := by rw [gridStore]
@[simp] theorem gridStore_gfres (b : Nat) (w : Word) (s : State) : (gridStore b w s).gfres = s.gfres := by rw [gridStore]
@[simp] theorem gridStore_arg0 (b : Nat) (w : Word) (s : State) : (gridStore b w s).arg0 = s.arg0 := by rw [gridStore]
@[simp] theorem gridStore_arg1 (b : Nat) (w : Word) (s : State) : (gridStore b w s).arg1 = s.arg1 := by rw [gridStore]
@[simp] theorem gridStore_arg2 (b : Nat) (w : Word) (s : State) : (gridStore b w s).arg2 = s.arg2 := by rw [gridStore]
@[simp] theorem gridStore_arg3 (b : Nat) (w : Word) (s : State) : (gridStore b w s).arg3 = s.arg3 := by rw [gridStore]
@[simp] theorem gridStore_pending (b : Nat) (w : Word) (s : State) : (gridStore b w s).pending = s.pending := by rw [gridStore]
@[simp] theorem gridStore_mem (b : Nat) (w : Word) (s : State) : (gridStore b w s).mem = s.mem := by rw [gridStore]
@[simp] theorem gridStore_mod (b : Nat) (w : Word) (s : State) : (gridStore b w s).mod = s.mod.draw (gridWordDraws b w 0) := by rw [gridStore]
@[simp] theorem gridStore_res (b : Nat) (w : Word) (s : State) : (gridStore b w s).res = s.res.draw (gridWordDraws b w 1) := by rw [gridStore]
@[simp] theorem gridStore_epoch (b : Nat) (w : Word) (s : State) : (gridStore b w s).epoch = s.epoch := by rw [gridStore]
@[simp] theorem gridStore_agenda (b : Nat) (w : Word) (s : State) : (gridStore b w s).agenda = s.agenda := by rw [gridStore]
@[simp] theorem gridStore_readData (b : Nat) (w : Word) (s : State) : (gridStore b w s).readData = s.readData := by rw [gridStore]

/-! ### Resets: the fields a soft or a hardware reset keeps or advances -/

@[simp] theorem softReset_mem (s : State) : (softReset s).mem = s.mem := rfl
@[simp] theorem softReset_mod (s : State) : (softReset s).mod = s.mod := rfl
@[simp] theorem softReset_res (s : State) : (softReset s).res = s.res := rfl
@[simp] theorem softReset_epoch (s : State) : (softReset s).epoch = s.epoch := rfl
@[simp] theorem softReset_agenda (s : State) : (softReset s).agenda = s.agenda := rfl
@[simp] theorem softReset_readData (s : State) : (softReset s).readData = s.readData := rfl
@[simp] theorem softReset_cmd (s : State) : (softReset s).cmd = State.reset.cmd := rfl
@[simp] theorem softReset_status (s : State) : (softReset s).status = State.reset.status := rfl
@[simp] theorem softReset_irqEn (s : State) : (softReset s).irqEn = State.reset.irqEn := rfl
@[simp] theorem softReset_config (s : State) : (softReset s).config = State.reset.config := rfl
@[simp] theorem softReset_plen (s : State) : (softReset s).plen = State.reset.plen := rfl
@[simp] theorem softReset_stage (s : State) : (softReset s).stage = State.reset.stage := rfl
@[simp] theorem softReset_segbits (s : State) : (softReset s).segbits = State.reset.segbits := rfl
@[simp] theorem softReset_modeused (s : State) : (softReset s).modeused = State.reset.modeused := rfl
@[simp] theorem softReset_maskid (s : State) : (softReset s).maskid = State.reset.maskid := rfl
@[simp] theorem softReset_score (s : State) : (softReset s).score = State.reset.score := rfl
@[simp] theorem softReset_mscore (s : State) : (softReset s).mscore = State.reset.mscore := rfl
@[simp] theorem softReset_ndcw (s : State) : (softReset s).ndcw = State.reset.ndcw := rfl
@[simp] theorem softReset_ncw (s : State) : (softReset s).ncw = State.reset.ncw := rfl
@[simp] theorem softReset_gfres (s : State) : (softReset s).gfres = State.reset.gfres := rfl
@[simp] theorem softReset_arg0 (s : State) : (softReset s).arg0 = State.reset.arg0 := rfl
@[simp] theorem softReset_arg1 (s : State) : (softReset s).arg1 = State.reset.arg1 := rfl
@[simp] theorem softReset_arg2 (s : State) : (softReset s).arg2 = State.reset.arg2 := rfl
@[simp] theorem softReset_arg3 (s : State) : (softReset s).arg3 = State.reset.arg3 := rfl
@[simp] theorem softReset_pending (s : State) : (softReset s).pending = State.reset.pending := rfl
@[simp] theorem hardwareReset_cmd (s : State) : (hardwareReset s).cmd = State.reset.cmd := rfl
@[simp] theorem hardwareReset_status (s : State) : (hardwareReset s).status = State.reset.status := rfl
@[simp] theorem hardwareReset_irqEn (s : State) : (hardwareReset s).irqEn = State.reset.irqEn := rfl
@[simp] theorem hardwareReset_config (s : State) : (hardwareReset s).config = State.reset.config := rfl
@[simp] theorem hardwareReset_plen (s : State) : (hardwareReset s).plen = State.reset.plen := rfl
@[simp] theorem hardwareReset_stage (s : State) : (hardwareReset s).stage = State.reset.stage := rfl
@[simp] theorem hardwareReset_segbits (s : State) : (hardwareReset s).segbits = State.reset.segbits := rfl
@[simp] theorem hardwareReset_modeused (s : State) : (hardwareReset s).modeused = State.reset.modeused := rfl
@[simp] theorem hardwareReset_maskid (s : State) : (hardwareReset s).maskid = State.reset.maskid := rfl
@[simp] theorem hardwareReset_score (s : State) : (hardwareReset s).score = State.reset.score := rfl
@[simp] theorem hardwareReset_mscore (s : State) : (hardwareReset s).mscore = State.reset.mscore := rfl
@[simp] theorem hardwareReset_ndcw (s : State) : (hardwareReset s).ndcw = State.reset.ndcw := rfl
@[simp] theorem hardwareReset_ncw (s : State) : (hardwareReset s).ncw = State.reset.ncw := rfl
@[simp] theorem hardwareReset_gfres (s : State) : (hardwareReset s).gfres = State.reset.gfres := rfl
@[simp] theorem hardwareReset_arg0 (s : State) : (hardwareReset s).arg0 = State.reset.arg0 := rfl
@[simp] theorem hardwareReset_arg1 (s : State) : (hardwareReset s).arg1 = State.reset.arg1 := rfl
@[simp] theorem hardwareReset_arg2 (s : State) : (hardwareReset s).arg2 = State.reset.arg2 := rfl
@[simp] theorem hardwareReset_arg3 (s : State) : (hardwareReset s).arg3 = State.reset.arg3 := rfl
@[simp] theorem hardwareReset_pending (s : State) : (hardwareReset s).pending = State.reset.pending := rfl
@[simp] theorem hardwareReset_mem (s : State) : (hardwareReset s).mem = State.reset.mem := rfl
@[simp] theorem hardwareReset_mod (s : State) : (hardwareReset s).mod = State.reset.mod := rfl
@[simp] theorem hardwareReset_res (s : State) : (hardwareReset s).res = State.reset.res := rfl
@[simp] theorem hardwareReset_epoch (s : State) : (hardwareReset s).epoch = s.epoch + 1 := rfl
@[simp] theorem hardwareReset_agenda (s : State) : (hardwareReset s).agenda = s.agenda := rfl
@[simp] theorem hardwareReset_readData (s : State) : (hardwareReset s).readData = s.readData := rfl

/-! ### Status updates -/

@[simp] theorem completedOk_accerr (st : Status) : st.completedOk.accerr = st.accerr := rfl
@[simp] theorem completedOk_done (st : Status) : st.completedOk.done = true := rfl
@[simp] theorem completedOk_err (st : Status) : st.completedOk.err = false := rfl
@[simp] theorem completedOk_errcode (st : Status) : st.completedOk.errcode = 0#4 := rfl
@[simp] theorem completedOk_errop (st : Status) : st.completedOk.errop = 0#8 := rfl
@[simp] theorem completedError_accerr (st : Status) (e : CmdError) (op : BitVec 8) :
    (st.completedError e op).accerr = st.accerr := rfl
@[simp] theorem completedError_done (st : Status) (e : CmdError) (op : BitVec 8) :
    (st.completedError e op).done = true := rfl
@[simp] theorem completedError_err (st : Status) (e : CmdError) (op : BitVec 8) :
    (st.completedError e op).err = true := rfl
@[simp] theorem completedError_errcode (st : Status) (e : CmdError) (op : BitVec 8) :
    (st.completedError e op).errcode = e.code := rfl
@[simp] theorem completedError_errop (st : Status) (e : CmdError) (op : BitVec 8) :
    (st.completedError e op).errop = op := rfl
@[simp] theorem cleared_accerr (st : Status) : st.cleared.accerr = st.accerr := rfl
@[simp] theorem cleared_done (st : Status) : st.cleared.done = false := rfl
@[simp] theorem cleared_err (st : Status) : st.cleared.err = false := rfl
@[simp] theorem cleared_errcode (st : Status) : st.cleared.errcode = 0#4 := rfl
@[simp] theorem cleared_errop (st : Status) : st.cleared.errop = 0#8 := rfl

/-- Every error has a code from 1 to 9 (60_exceptions.md R301). -/
theorem code_range (e : CmdError) : 1 ≤ e.code.toNat ∧ e.code.toNat ≤ 9 := by cases e <;> decide

/-! ### BUSY and reads of storage depend on a few fields only -/

@[simp] theorem completeOk_busy (s : State) : (completeOk s).busy = false := rfl
@[simp] theorem completeError_busy (e : CmdError) (op : BitVec 8) (s : State) :
    (completeError e op s).busy = false := rfl
@[simp] theorem accessError_busy (s : State) : s.accessError.busy = s.busy := rfl
@[simp] theorem acceptCommand_busy (w : Word) (s : State) : (acceptCommand w s).busy = true := rfl

theorem memByte_congr {s t : State} (hm : t.mem = s.mem) (he : t.epoch = s.epoch) (a : Nat) :
    t.memByte a = s.memByte a := by simp [State.memByte, hm, he]

theorem modAt_congr {s t : State} (hm : t.mod = s.mod) (he : t.epoch = s.epoch) (r c : Nat) :
    t.modAt r c = s.modAt r c := by simp [State.modAt, hm, he]

theorem resAt_congr {s t : State} (hm : t.res = s.res) (he : t.epoch = s.epoch) (r c : Nat) :
    t.resAt r c = s.resAt r c := by simp [State.resAt, hm, he]

/-- A byte of storage depends on the memory, the planes and the epoch only. -/
theorem byteAt_congr {s t : State} (hmem : t.mem = s.mem) (hmod : t.mod = s.mod) (hres : t.res = s.res)
    (he : t.epoch = s.epoch) (a : Nat) : t.byteAt a = s.byteAt a := by
  simp only [State.byteAt, State.gridByte, memByte_congr hmem he, modAt_congr hmod he, resAt_congr hres he]

@[simp] theorem completeOk_byteAt (s : State) (a : Nat) : (completeOk s).byteAt a = s.byteAt a := rfl
@[simp] theorem completeError_byteAt (e : CmdError) (op : BitVec 8) (s : State) (a : Nat) :
    (completeError e op s).byteAt a = s.byteAt a := rfl

end Sys2Proof.Machine
end

