-- ==== Sys2Proof/Laws/Bus.lean ====
section
/-!
SUPPORT. Sys2Proof/Laws/Bus.lean: what a host access can do, once: the cases of a write and of a read.
-/

namespace Sys2Proof.Machine

/-- The register at an offset sits there: the offsets of the registers a write acts on. -/
theorem csrAt_offset {off : Nat} {k : Csr} (h : csrAt off = some k) : off = k.offset := by
  unfold csrAt at h
  split at h <;> simp at h <;> subst h <;> rfl

/-- Everything a host write can do: an access error, or one of the writes of 20_memory.md R66 and R67, each with
the address and the BUSY value it takes. -/
theorem hostWrite_cases (a : HostAddr) (w : Word) (s : State) :
    hostWrite a w s = s.accessError ∨
    (wordBase a = 0x04 ∧ s.busy = false ∧ hostWrite a w s = acceptCommand w s) ∨
    (wordBase a = 0x08 ∧ hostWrite a w s = { s with status := s.status.hostWrite w }) ∨
    (wordBase a = 0x0C ∧ w.getLsbD 31 = true ∧ hostWrite a w s = softReset s) ∨
    (wordBase a = 0x0C ∧ w.getLsbD 31 = false ∧ hostWrite a w s = { s with irqEn := w.getLsbD 0 }) ∨
    (∃ k ∈ [Csr.config, .plen, .stage, .maskid, .arg0, .arg1, .arg2, .arg3],
      wordBase a = k.offset ∧ s.busy = false ∧ hostWrite a w s = csrStore k w s) ∨
    (regionOf (wordBase a) = .buffer ∧ s.busy = false ∧ hostWrite a w s = s.store (wordBase a) (wordBytes w)) ∨
    (regionOf (wordBase a) = .grid ∧ s.busy = false ∧ hostWrite a w s = gridStore (wordBase a) w s) := by
  unfold hostWrite
  generalize wordBase a = b
  cases hr : regionOf b with
  | unmapped => simp [hr]
  | rom => simp [hr]
  | buffer => cases hb : s.busy <;> simp [hr]
  | grid => cases hb : s.busy <;> simp [hr]
  | csr =>
    simp only [hr]
    cases hk : csrAt b with
    | none => simp
    | some k =>
      have ho := csrAt_offset hk
      simp only []
      cases k <;> simp only [csrWrite] <;> try (cases hb : s.busy <;> simp [csrStore, ho, Csr.offset]; done)
      · cases hb : s.busy <;> simp [writeCmd, hb, ho, Csr.offset]
      · cases hw : w.getLsbD 31
        · exact .inr (.inr (.inr (.inr (.inl ⟨ho, rfl, by simp only [writeCtrl, hw, if_false, Bool.false_eq_true]⟩))))
        · exact .inr (.inr (.inr (.inl ⟨ho, rfl, by simp only [writeCtrl, hw, if_true]⟩)))

/-- The word a host read returns. -/
@[simp] theorem hostReads_eq (s : State) (a : HostAddr) : s.hostReads a = s.readWord a := rfl

/-- Everything a host read can do: the word goes to readData, and the access is an error exactly for a region
refused while BUSY = 1. -/
theorem hostRead_cases (a : HostAddr) (s : State) :
    (hostRead a s = { s with readData := s.readWord a }) ∨
    (s.busy = true ∧ (regionOf (wordBase a)).lockedWhenBusy = true ∧
      hostRead a s = { s.accessError with readData := 0#32 }) := by
  unfold hostRead
  cases hb : s.busy
  · simp
  · cases hr : regionOf (wordBase a) <;> simp [Region.lockedWhenBusy, State.readWord, hr, hb]

end Sys2Proof.Machine
end

