-- ==== Sys2Proof/Laws/Field.lean ====
section
/-!
SUPPORT. Sys2Proof/Laws/Field.lean: the field tables and generator polynomials the machine computes from `GF_POLY`
are the rows 20_memory.md R80 and R81 print, and gfmul by those rows.
-/

namespace Sys2Proof.Machine

/-! ## The rows as the spec prints them -/

/-- The EXP rows as 20_memory.md R80 prints them: row k holds entries 16k..16k+15, the first in the highest byte. -/
def expRows : List Nat :=
  [0x01020408102040801D3A74E8CD871326,
   0x4C982D5AB475EAC98F03060C183060C0,
   0x9D274E9C254A94356AD4B577EEC19F23,
   0x468C050A142850A05DBA69D2B96FDEA1,
   0x5FBE61C2992F5EBC65CA890F1E3C78F0,
   0xFDE7D3BB6BD6B17FFEE1DFA35BB671E2,
   0xD9AF4386112244880D1A3468D0BD67CE,
   0x811F3E7CF8EDC7933B76ECC5973366CC,
   0x85172E5CB86DDAA94F9E214284152A54,
   0xA84D9A2952A455AA49923972E4D5B773,
   0xE6D1BF63C6913F7EFCE5D7B37BF6F1FF,
   0xE3DBAB4B963162C495376EDCA557AE41,
   0x82193264C88D070E1C3870E0DDA753A6,
   0x51A259B279F2F9EFC39B2B56AC458A09,
   0x122448903D7AF4F5F7F3FBEBCB8B0B16,
   0x2C58B07DFAE9CF831B366CD8AD478E01]

/-- The LOG rows of R80. -/
def logRows : List Nat :=
  [0x0000011902321AC603DF33EE1B68C74B,
   0x0464E00E348DEF811CC169F8C8084C71,
   0x058A652FE1240F2135938EDAF0128245,
   0x1DB5C27D6A27F9B9C99A09784DE472A6,
   0x06BF8B6266DD30FDE29825B310912288,
   0x36D094CE8F96DBBDF1D2135C83384640,
   0x1E42B6A3C3487E6E6B3A2854FA85BA3D,
   0xCA5E9B9F0A15792B4ED4E5AC73F3A757,
   0x0770C0F78C80630D674ADEED31C5FE18,
   0xE3A5997726B8B47C114492D92320892E,
   0x373FD15B95BCCFCD908797B2DCFCBE61,
   0xF256D3AB142A5D9E843C3953476D41A2,
   0x1F2D43D8B77BA476C41749EC7F0C6FF6,
   0x6CA13B52299D55AAFB6086B1BBCC3E5A,
   0xCB595FB09CA9A0510BF516EB7A752CD7,
   0x4FAED5E9E6E7ADE874D6F4EAA85058AF]

/-- The coefficients GEN[n][1..n] of 20_memory.md R81 for n = 1..30, the first in the highest byte. -/
def genRows : List Nat :=
  [0x01,
   0x0302,
   0x070E08,
   0x0F367840,
   0x1FC63F9374,
   0x3F01DA20E326,
   0x7F7A9AA40B4475,
   0xFF0B5136EFADC818,
   0xE2CF9EF5EBA4E8C525,
   0xD8C29F6FC75E5F719DC1,
   0xAC82A3327BDBA2F89074A0,
   0x44774376DC1F07545C7FD561,
   0x8949E311B111340D2E2B538478,
   0x0E367246AE972B9EC37FA6D2EAA3,
   0x1DC46FA3704A0A69698B849720861A] ++
  [0x3B0D68BD44D11E08A34129E56232243B,
   0x774253787716C553F9298F8655357D634F,
   0xEFFBB77195AFC7D7F0DC4952AD4B2043D992,
   0xC2081A9214DFBB985573EE85926DAD8A21ACB3,
   0x98B9F0056F6306DC70964524BB16E4C67979A5AE,
   0x2CF30D833184C243D61C597C529EF425EC8E52FF59,
   0x59B383B0B6F413BD45281C891D7B43FD56DAE61A91F5,
   0xB3449AA38C88BE9819551303C41B71C6128202785D2947,
   0x7A76A946B2EDD8667396E54982483D2BCE01EDF77FD99075,
   0xF531E435D706CDD226523850618B51867EA862E27D17ABADC1,
   0xF633B7048862C7984D38CE189128D175E92A87444690924D2B5E,
   0xF03D1D91907596303A8B5E86C16921A9CA667B71C319D50698A4D9,
   0xFC091C0D12FBD09667AE6429A70CF7387577E97FB5647993B04A3AC5,
   0xE4C1C430AA5650D9368F4F2058FF57180FFB5552C93A70BF996C848FAA,
   0xD4F64D49C3C04B62054667B116D98A33B5F64819122EE44AD8C30B6A8296]

/-- Byte `i`, counted from the highest, of the `n`-byte number `row`. -/
def rowByte (row n i : Nat) : Byte := BitVec.ofNat 8 (row >>> (8 * (n - 1 - i)))

/-- `EXP[i]` as printed (20_memory.md R80). -/
def printedExp (i : Nat) : Byte := rowByte (expRows.getD (i / 16) 0) 16 (i % 16)

/-- `LOG[i]` as printed (20_memory.md R80). -/
def printedLog (i : Nat) : Byte := rowByte (logRows.getD (i / 16) 0) 16 (i % 16)

/-- `GEN[n][0..n]` as printed (20_memory.md R81). -/
def printedGen (n : Nat) : List Byte := 0x01#8 :: (List.range n).map fun i => rowByte (genRows.getD (n - 1) 0) n i

/-- gfmul by the printed tables (40_gf_rs.md R132). -/
def printedGfmul (a b : Byte) : Byte :=
  if a = 0#8 ∨ b = 0#8 then 0#8
  else printedExp (((printedLog a.toNat).toNat + (printedLog b.toNat).toNat) % 255)

/-! ## The machine computes them -/

theorem expRom_eq_printed : ∀ i < 256, expRom i = printedExp i := by decide +kernel

theorem logRom_eq_printed : ∀ i < 256, logRom i = printedLog i := by decide +kernel

/-- gfmul through the printed tables: the form to evaluate. -/
theorem gfmul_eq_printed (a b : Byte) : gfmul a b = printedGfmul a b := by
  have ha := logRom_eq_printed a.toNat a.isLt
  have hb := logRom_eq_printed b.toNat b.isLt
  have he := expRom_eq_printed (((printedLog a.toNat).toNat + (printedLog b.toNat).toNat) % 255) (by omega)
  simp only [expRom, logRom] at ha hb he
  simp only [gfmul, Params.gfmul, printedGfmul, ha, hb, he]

/-- One more root, through the printed tables. -/
theorem timesRoot_eq_printed (g : List Byte) (r : Byte) :
    Config.params.timesRoot g r = List.zipWith (fun a b => a ^^^ b) (g ++ [0#8]) (0#8 :: g.map (printedGfmul r)) := by
  have h : Config.params.gfmul r = printedGfmul r := funext (gfmul_eq_printed r)
  simp only [Params.timesRoot, h]

/-- Each printed generator is the one before with one more root. -/
theorem printedGen_succ : ∀ n < 30, List.zipWith (fun a b => a ^^^ b) (printedGen n ++ [0#8])
    (0#8 :: (printedGen n).map (printedGfmul (printedExp n))) = printedGen (n + 1) := by decide +kernel

theorem genPoly_eq_printed (n : Nat) (h : n ≤ 30) : Config.params.genPoly n = printedGen n := by
  induction n with
  | zero => rfl
  | succ n ih =>
    have he : Config.params.exp n = printedExp n := expRom_eq_printed n (by omega)
    rw [Params.genPoly, ih (by omega), timesRoot_eq_printed, he, printedGen_succ n (by omega)]

/-- `GEN[n][i]` as printed, for the degrees held. -/
theorem genRom_eq_printed (n i : Nat) (h1 : 1 ≤ n) (h30 : n ≤ 30) (hi : i ≤ n) :
    genRom n i = (printedGen n).getD i 0#8 := by
  have h : ¬ (n = 0 ∨ Config.params.genMax < n ∨ n < i) := by
    have : Config.params.genMax = 30 := rfl
    omega
  rw [genRom, Params.gen, if_neg h, genPoly_eq_printed n h30]

@[simp] theorem genPoly_length (n : Nat) : (Config.params.genPoly n).length = n + 1 := by
  induction n with
  | zero => rfl
  | succ n ih => simp [Params.genPoly, Params.timesRoot, ih]

end Sys2Proof.Machine
end

