-- ==== Sys2Proof/Laws/Grid.lean ====
section
/-!
SUPPORT. Sys2Proof/Laws/Grid.lean: the laws of the grid planes: a cell read after it is written is what was
written, every other cell stays, the canonical form is kept.
-/

namespace Sys2Proof.Machine

theorem cellIndex_lt {r c : Nat} (h : inGrid r c = true) : cellIndex r c < gridCells := by
  simp only [inGrid, decide_eq_true_eq, gridSide] at h
  simp only [cellIndex, gridSide, gridCells]
  omega

theorem cellIndex_inj {r c r' c' : Nat} (h : inGrid r c = true) (h' : inGrid r' c' = true) :
    cellIndex r c = cellIndex r' c' ↔ r = r' ∧ c = c' := by
  simp only [inGrid, decide_eq_true_eq, gridSide] at h h'
  simp only [cellIndex, gridSide]
  omega

/-- A cell read after one cell is written. -/
theorem cell_set (p : Plane) (free : Nat → Bool) (r c r' c' : Nat) (v : Bool) :
    (p.set r c v).cell free r' c' =
      if inGrid r c = true ∧ r' = r ∧ c' = c then v else p.cell free r' c' := by
  by_cases h : inGrid r c = true
  · by_cases h' : inGrid r' c' = true
    · have hi := cellIndex_inj h h'
      by_cases he : cellIndex r c = cellIndex r' c'
      · obtain ⟨rfl, rfl⟩ := hi.mp he
        cases v <;> simp [Plane.cell, Plane.set, h]
      · have hne : ¬ (r' = r ∧ c' = c) := fun hh => he (hi.mpr ⟨hh.1.symm, hh.2.symm⟩)
        cases v <;> simp [Plane.cell, Plane.set, h, h', hne, Nat.testBit_two_pow_of_ne he]
    · have hne : ¬ (r' = r ∧ c' = c) := by rintro ⟨rfl, rfl⟩; exact h' h
      simp [Plane.cell, h', h, hne]
  · simp [Plane.set, h]

@[simp] theorem draw_nil (p : Plane) : p.draw [] = p := rfl

@[simp] theorem draw_cons (p : Plane) (d : Draw) (ds : List Draw) :
    p.draw (d :: ds) = (p.set d.1 d.2.1 d.2.2).draw ds := rfl

theorem draw_append (p : Plane) (ds es : List Draw) : p.draw (ds ++ es) = (p.draw ds).draw es := by
  simp [Plane.draw, List.foldl_append]

/-- A cell no assignment names is left alone. -/
theorem cell_draw_of_not_mem (p : Plane) (free : Nat → Bool) (ds : List Draw) (r c : Nat)
    (h : ∀ d ∈ ds, ¬ (d.1 = r ∧ d.2.1 = c)) : (p.draw ds).cell free r c = p.cell free r c := by
  induction ds generalizing p with
  | nil => rfl
  | cons d ds ih =>
    have h1 := h d (by simp)
    have hne : ¬ (inGrid d.1 d.2.1 = true ∧ r = d.1 ∧ c = d.2.1) := fun hh => h1 ⟨hh.2.1.symm, hh.2.2.symm⟩
    rw [draw_cons, ih _ fun e he => h e (by simp [he]), cell_set, if_neg hne]

/-- A cell the assignments name with one value only holds that value. -/
theorem cell_draw_of_mem (p : Plane) (free : Nat → Bool) (ds : List Draw) (r c : Nat) (v : Bool)
    (hg : inGrid r c = true) (hmem : (r, c, v) ∈ ds) (huniq : ∀ d ∈ ds, d.1 = r → d.2.1 = c → d.2.2 = v) :
    (p.draw ds).cell free r c = v := by
  induction ds generalizing p with
  | nil => simp at hmem
  | cons d ds ih =>
    rw [draw_cons]
    have hu : ∀ e ∈ ds, e.1 = r → e.2.1 = c → e.2.2 = v := fun e he => huniq e (by simp [he])
    by_cases hin : (r, c, v) ∈ ds
    · exact ih _ hin hu
    · have hd : d = (r, c, v) := by
        rcases List.mem_cons.mp hmem with h | h
        · exact h.symm
        · exact absurd h hin
      have hno : ∀ e ∈ ds, ¬ (e.1 = r ∧ e.2.1 = c) := by
        rintro ⟨er, ec, ev⟩ he ⟨rfl, rfl⟩
        have : ev = v := hu _ he rfl rfl
        exact hin (this ▸ he)
      rw [cell_draw_of_not_mem _ _ _ _ _ hno, cell_set, hd]
      simp [hg]

/-! ## The canonical form -/

theorem plane_wf_iff (p : Plane) :
    p.wf = true ↔ p.known < 2 ^ gridCells ∧ ∀ i, p.bits.testBit i = true → p.known.testBit i = true := by
  simp only [Plane.wf, Bool.and_eq_true, decide_eq_true_eq, beq_iff_eq]
  refine and_congr_right fun _ => ⟨fun h i hb => ?_, fun h => ?_⟩
  · have := congrArg (fun x => x.testBit i) h
    simpa [hb] using this
  · apply Nat.eq_of_testBit_eq
    intro i
    have := h i
    cases hb : p.bits.testBit i <;> simp_all

theorem set_wf (p : Plane) (r c : Nat) (v : Bool) (h : p.wf = true) : (p.set r c v).wf = true := by
  by_cases hg : inGrid r c = true
  · obtain ⟨hk, hb⟩ := (plane_wf_iff p).mp h
    have hlt : 2 ^ cellIndex r c < 2 ^ gridCells := Nat.pow_lt_pow_right (by omega) (cellIndex_lt hg)
    refine (plane_wf_iff _).mpr ⟨?_, fun i => ?_⟩
    · simpa only [Plane.set, hg, if_true] using Nat.or_lt_two_pow hk hlt
    · have := hb i
      cases v <;> cases hi : p.bits.testBit i <;> cases ht : (2 ^ cellIndex r c).testBit i <;>
        simp_all [Plane.set]
  · simpa [Plane.set, hg] using h

theorem draw_wf (p : Plane) (ds : List Draw) (h : p.wf = true) : (p.draw ds).wf = true := by
  induction ds generalizing p with
  | nil => exact h
  | cons d ds ih => exact ih _ (set_wf _ _ _ _ h)

theorem blank_wf : Plane.blank.wf = true := by
  refine (plane_wf_iff _).mpr ⟨Nat.sub_lt (Nat.two_pow_pos _) one_pos, fun i hb => ?_⟩
  simp [Plane.blank] at hb

theorem unwritten_wf : Plane.unwritten.wf = true := by
  refine (plane_wf_iff _).mpr ⟨Nat.two_pow_pos _, fun i hb => ?_⟩
  simp [Plane.unwritten] at hb

/-- Every cell of a cleared plane is 0, whatever the free values are. -/
theorem cell_blank (free : Nat → Bool) (r c : Nat) : Plane.blank.cell free r c = false := by
  by_cases h : inGrid r c = true
  · have hk : Plane.blank.known.testBit (cellIndex r c) = true := by
      simp only [Plane.blank, Nat.testBit_two_pow_sub_one, cellIndex_lt h, decide_true]
    simp only [Plane.cell, h, if_true, hk]
    simp [Plane.blank]
  · simp [Plane.cell, h]

/-- The cells (i, j) with both coordinates below n. -/
theorem mem_squareCells (n r c : Nat) : (r, c) ∈ squareCells n ↔ r < n ∧ c < n := by
  simp [squareCells]

end Sys2Proof.Machine
end

