-- ==== Sys2Proof/Laws/Memory.lean ====
section
/-!
SUPPORT. Sys2Proof/Laws/Memory.lean: the laws of the buffer memory: a byte read after a store is the byte
stored, every other byte stays, the canonical form is kept, and memories that hold the same are equal.
-/

namespace Sys2Proof.Machine

@[simp] theorem lookup_nil (a : Nat) : Memory.lookup [] a = none := rfl

@[simp] theorem lookup_cons (b : Nat) (v : Byte) (m : Memory) (a : Nat) :
    Memory.lookup ((b, v) :: m) a = if a = b then some v else Memory.lookup m a := rfl

theorem lookup_append (m n : Memory) (a : Nat) :
    Memory.lookup (m ++ n) a = (Memory.lookup m a).or (Memory.lookup n a) := by
  induction m with
  | nil => simp
  | cons c m ih =>
    obtain ⟨b, v⟩ := c
    by_cases h : a = b <;> simp [h, ih]

/-- A filter on addresses keeps the look-up of the addresses it keeps and loses the others. -/
theorem lookup_filter (p : Nat → Bool) (m : Memory) (a : Nat) :
    Memory.lookup (m.filter fun c => p c.1) a = if p a then Memory.lookup m a else none := by
  induction m with
  | nil => simp
  | cons c m ih =>
    obtain ⟨b, v⟩ := c
    by_cases hb : p b <;> by_cases ha : a = b <;> by_cases hp : p a <;> simp_all

/-- The look-up of consecutive cells from `base` on. -/
theorem lookup_cells (base : Nat) (bs : List Byte) (k a : Nat) :
    Memory.lookup ((bs.zipIdx k).map fun p => (base + p.2, p.1)) a =
      if base + k ≤ a then bs[a - (base + k)]? else none := by
  induction bs generalizing k with
  | nil => simp
  | cons b bs ih =>
    simp only [List.zipIdx_cons, List.map_cons, lookup_cons, ih]
    by_cases h1 : a = base + k
    · simp [h1]
    · by_cases h2 : base + k ≤ a
      · have h3 : base + (k + 1) ≤ a := by omega
        have h4 : a - (base + k) = a - (base + (k + 1)) + 1 := by omega
        simp [h1, h2, h3, h4]
      · have h3 : ¬ base + (k + 1) ≤ a := by omega
        simp [h1, h2, h3]

/-- A byte looked up after a store. -/
theorem lookup_store (m : Memory) (base : Nat) (bs : List Byte) (a : Nat) :
    (m.store base bs).lookup a =
      if base ≤ a ∧ a < base + bs.length then bs[a - base]? else m.lookup a := by
  simp only [Memory.store, lookup_append, lookup_filter (fun b => decide (b < base)),
    lookup_filter (fun b => decide (base + bs.length ≤ b))]
  have h := lookup_cells base bs 0 a
  simp only [Nat.add_zero] at h
  rw [h]
  by_cases h1 : base ≤ a
  · by_cases h2 : a < base + bs.length
    · have h3 : ¬ a < base := by omega
      have h4 : ¬ base + bs.length ≤ a := by omega
      simp [h1, h2, h3, h4]
    · have h3 : ¬ a < base := by omega
      have h4 : base + bs.length ≤ a := by omega
      have h5 : bs[a - base]? = none := by simp; omega
      simp [h1, h2, h3, h4, h5]
  · have h3 : a < base := by omega
    have h4 : ¬ base + bs.length ≤ a := by omega
    simp [h1, h3, h4]

/-- A stored byte read back. -/
theorem memByte_store_inside (s : State) (base : Nat) (bs : List Byte) (i : Nat) (h : i < bs.length) :
    (s.store base bs).memByte (base + i) = bs[i] := by
  simp [State.memByte, lookup_store, h]

/-- A store leaves every other byte alone. -/
theorem memByte_store_outside (s : State) (base : Nat) (bs : List Byte) (a : Nat)
    (h : ¬ (base ≤ a ∧ a < base + bs.length)) : (s.store base bs).memByte a = s.memByte a := by
  simp [State.memByte, lookup_store, h]

/-! ## The canonical form -/

theorem risesAbove_iff (lo : Nat) (m : Memory) :
    Memory.risesAbove lo m = true ↔ (∀ c ∈ m, lo < c.1) ∧ m.Pairwise (fun c d => c.1 < d.1) := by
  induction m generalizing lo with
  | nil => simp [Memory.risesAbove]
  | cons c m ih =>
    obtain ⟨b, v⟩ := c
    simp only [Memory.risesAbove, Bool.and_eq_true, decide_eq_true_eq, ih, List.mem_cons, List.pairwise_cons,
      forall_eq_or_imp]
    constructor
    · rintro ⟨h1, h2, h3⟩
      exact ⟨⟨h1, fun c hc => lt_trans h1 (h2 c hc)⟩, h2, h3⟩
    · rintro ⟨⟨h1, _⟩, h2, h3⟩
      exact ⟨h1, h2, h3⟩

/-- What the canonical form says of the entries. -/
theorem memory_wf_iff (m : Memory) :
    m.wf = true ↔ (∀ c ∈ m, bufferBase ≤ c.1 ∧ c.1 < bufferEnd) ∧ m.Pairwise (fun c d => c.1 < d.1) := by
  simp only [Memory.wf, Bool.and_eq_true, risesAbove_iff, List.all_eq_true, decide_eq_true_eq]
  constructor
  · rintro ⟨⟨h1, h2⟩, h3⟩
    exact ⟨fun c hc => ⟨by have := h1 c hc; simp only [bufferBase] at *; omega, h3 c hc⟩, h2⟩
  · rintro ⟨h1, h2⟩
    exact ⟨⟨fun c hc => by have := (h1 c hc).1; simp only [bufferBase] at *; omega, h2⟩, fun c hc => (h1 c hc).2⟩

/-- A store inside the buffers keeps the canonical form. -/
theorem store_wf (m : Memory) (base : Nat) (bs : List Byte) (hm : m.wf = true) (hlo : bufferBase ≤ base)
    (hhi : base + bs.length ≤ bufferEnd) : (m.store base bs).wf = true := by
  rw [memory_wf_iff] at hm ⊢
  obtain ⟨hin, hrise⟩ := hm
  have hcells : ∀ c ∈ bs.zipIdx.map (fun p => (base + p.2, p.1)), base ≤ c.1 ∧ c.1 < base + bs.length := by
    intro c hc
    obtain ⟨⟨b, i⟩, hp, rfl⟩ := List.mem_map.mp hc
    have := List.snd_lt_of_mem_zipIdx hp
    simp at this ⊢
    omega
  constructor
  · intro c hc
    simp only [Memory.store, List.mem_append, List.mem_filter, decide_eq_true_eq] at hc
    rcases hc with (⟨h, _⟩ | h) | ⟨h, _⟩
    · exact hin c h
    · have := hcells c h; omega
    · exact hin c h
  · simp only [Memory.store, List.pairwise_append]
    refine ⟨⟨hrise.filter _, ?_, ?_⟩, hrise.filter _, ?_⟩
    · rw [List.pairwise_map, List.zipIdx_eq_zip_range', ← List.pairwise_map (f := Prod.snd)
        (R := fun i j => base + i < base + j)]
      have : (bs.zip (List.range' 0 bs.length)).map Prod.snd = List.range' 0 bs.length := by
        simp [List.map_snd_zip]
      rw [this]
      exact (List.pairwise_lt_range' (s := 0) (n := bs.length)).imp (by intros; omega)
    · intro c hc d hd
      have h1 := hcells d hd
      simp only [List.mem_filter, decide_eq_true_eq] at hc
      omega
    · intro c hc d hd
      simp only [List.mem_append, List.mem_filter, decide_eq_true_eq] at hc hd
      rcases hc with ⟨_, h⟩ | h
      · omega
      · have := hcells c h; omega

theorem reset_memory_wf : State.reset.mem.wf = true := rfl

/-- An entry of a canonical memory is found under its address. -/
theorem lookup_eq_some_iff (m : Memory) (hm : m.Pairwise (fun c d => c.1 < d.1)) (a : Nat) (v : Byte) :
    m.lookup a = some v ↔ (a, v) ∈ m := by
  induction m with
  | nil => simp
  | cons c m ih =>
    obtain ⟨b, w⟩ := c
    obtain ⟨h1, h2⟩ := List.pairwise_cons.mp hm
    by_cases h : a = b
    · subst h
      have : (a, v) ∉ m := fun hmem => absurd (h1 _ hmem) (by simp)
      simp [this, eq_comm]
    · simp [h, ih h2]

/-- Canonical memories that hold the same bytes are the same data. -/
theorem memory_ext (m n : Memory) (hm : m.wf = true) (hn : n.wf = true) (h : ∀ a, m.lookup a = n.lookup a) :
    m = n := by
  rw [memory_wf_iff] at hm hn
  have hperm : ∀ c, c ∈ m ↔ c ∈ n := by
    rintro ⟨a, v⟩
    rw [← lookup_eq_some_iff m hm.2, ← lookup_eq_some_iff n hn.2, h]
  have nd : ∀ l : Memory, l.Pairwise (fun c d => c.1 < d.1) → l.Nodup := fun l hl =>
    hl.imp fun {c d} hcd heq => absurd (heq ▸ hcd) (lt_irrefl _)
  have hp : m.Perm n := (List.perm_ext_iff_of_nodup (nd m hm.2) (nd n hn.2)).mpr hperm
  exact hp.eq_of_pairwise (fun c d _ _ h1 h2 => absurd (lt_trans h1 h2) (lt_irrefl _)) hm.2 hn.2

end Sys2Proof.Machine
end

