-- ==== Sys2Proof/Laws/Commands.lean ====
section
/-!
SUPPORT. Sys2Proof/Laws/Commands.lean: what each command's core step answers, once: an error completion when
its check raises, else the completion of its writes.
-/

namespace Sys2Proof.Machine

theorem finish_guarded (op : BitVec 8) (check : State → Option CmdError) (writes : State → State) (s : State) :
    finish op s (guarded check writes s) =
      match check s with
      | some e => .next (completeError e op s)
      | none => .next (completeOk (writes s)) := by
  cases h : check s <;> simp [finish, guarded, h]

theorem finish_guarded_error {op : BitVec 8} {check : State → Option CmdError} {writes : State → State}
    {s : State} {e : CmdError} (h : check s = some e) :
    finish op s (guarded check writes s) = .next (completeError e op s) := by
  rw [finish_guarded, h]

theorem finish_guarded_ok {op : BitVec 8} {check : State → Option CmdError} {writes : State → State}
    {s : State} (h : check s = none) :
    finish op s (guarded check writes s) = .next (completeOk (writes s)) := by
  rw [finish_guarded, h]

theorem exec_nop (s : State) : exec .nop s = .next (completeOk s) := rfl

theorem exec_gfmul (s : State) : exec .gfmul s = .next (completeOk (gfmulWrites s)) := rfl

theorem exec_pack (s : State) :
    exec .pack s = match packCheck s with
      | some e => .next (completeError e 0x10#8 s)
      | none => .next (completeOk (packWrites s)) := finish_guarded _ _ _ _

theorem exec_rsenc (s : State) :
    exec .rsenc s = match rsencCheck s with
      | some e => .next (completeError e 0x21#8 s)
      | none => .next (completeOk (rsencWrites s)) := finish_guarded _ _ _ _

theorem exec_eccgen (s : State) :
    exec .eccgen s = match eccgenCheck s with
      | some e => .next (completeError e 0x22#8 s)
      | none => .next (completeOk (eccgenWrites s)) := finish_guarded _ _ _ _

theorem exec_reserve (s : State) :
    exec .reserve s = match reserveCheck s with
      | some e => .next (completeError e 0x30#8 s)
      | none => .next (completeOk (reserveWrites s)) := finish_guarded _ _ _ _

theorem exec_fill (s : State) :
    exec .fill s = match fillCheck s with
      | some e => .next (completeError e 0x31#8 s)
      | none => .next (completeOk (fillWrites s)) := finish_guarded _ _ _ _

theorem exec_maskapply (p : BitVec 3) (s : State) :
    exec (.maskapply p) s = match maskCheck p.toNat s with
      | some e => .next (completeError e 0x40#8 s)
      | none => .next (completeOk (applyMask p.toNat s)) := finish_guarded _ _ _ _

theorem exec_maskscore (p : BitVec 3) (s : State) :
    exec (.maskscore p) s = match maskCheck p.toNat s with
      | some e => .next (completeError e 0x41#8 s)
      | none => .next (completeOk (maskscoreWrites p.toNat s)) := finish_guarded _ _ _ _

theorem exec_masksel (s : State) :
    exec .masksel s = match maskselCheck s with
      | some e => .next (completeError e 0x42#8 s)
      | none => .next (completeOk (maskselWrites s)) := finish_guarded _ _ _ _

theorem exec_format (s : State) :
    exec .format s = match formatCheck s with
      | some e => .next (completeError e 0x50#8 s)
      | none => .next (completeOk (formatWrites s)) := finish_guarded _ _ _ _

theorem exec_encode (s : State) :
    exec .encode s = match runStages encodeStages s with
      | .error (e, op) => .next (completeError e op s)
      | .ok t => .next (completeOk t) := rfl

/-! ## The core's step -/

theorem coreStep_idle {s : State} (h : s.pending = none) : coreStep s = .next s := by simp [coreStep, h]

theorem coreStep_command {s : State} {w : Word} {i : Instr} (h : s.pending = some w) (hd : decode w = .ok i) :
    coreStep s = exec i s := by simp [coreStep, h, hd]

theorem coreStep_illegal {s : State} {w : Word} {e : DecodeError} (h : s.pending = some w)
    (hd : decode w = .error e) : coreStep s = .next (illegalCommand (opField w) s) := by simp [coreStep, h, hd]

/-- checkConfig raises nothing exactly for a legal CONFIG (10_state.md R32). -/
theorem check_eq_none_iff (c : SymbolConfig) : c.check = none ↔ c.versionOK = true ∧ c.eccOK = true := by
  cases hv : c.versionOK <;> cases he : c.eccOK <;> simp [SymbolConfig.check, hv, he]

/-! ## Lengths -/

@[simp] theorem bits_length (v w : Nat) : (bits v w).length = w := by simp [bits]

@[simp] theorem bytesOfBits_length (n : Nat) (l : List Bool) : (bytesOfBits n l).length = n := by
  induction n generalizing l with
  | zero => rfl
  | succ n ih => simp [bytesOfBits, ih]

@[simp] theorem genTail_length (n : Nat) : (genTail n).length = n := by simp [genTail]

theorem rsRound_length (gen rem : List Byte) (d : Byte) (h : rem.length = gen.length) :
    (rsRound gen rem d).length = gen.length := by
  cases rem with
  | nil =>
    have : gen = [] := List.length_eq_zero_iff.mp h.symm
    simp [rsRound, this]
  | cons r rem => simp [rsRound] at *; omega

@[simp] theorem rsRemainder_length (data : List Byte) (n : Nat) : (rsRemainder data n).length = n := by
  have : ∀ rem : List Byte, rem.length = n → (data.foldl (rsRound (genTail n)) rem).length = n := by
    induction data with
    | nil => simp
    | cons d data ih =>
      intro rem hrem
      simp only [List.foldl_cons]
      exact ih _ (by rw [rsRound_length _ _ _ (by simp [hrem])]; simp)
  exact this _ (by simp)

@[simp] theorem wordBytes_length (w : Word) : (wordBytes w).length = 4 := rfl

end Sys2Proof.Machine
end

