-- ==== Sys2Proof/Laws/Tables.lean ====
section
/-!
SUPPORT. Sys2Proof/Laws/Tables.lean: which parameter each table of the machine reads, the format and version tables
as their constructions give them, and the block table inside the buffers and the generator table.
-/

namespace Sys2Proof.Machine

/-! ## The look-ups, by parameter -/

theorem groups_eq (micro : Bool) (ver : Nat) (level : EccLevel) : groups micro ver level = isoGroups micro ver level := rfl

theorem legalEcc_eq (micro : Bool) (ver : Nat) : legalEcc micro ver = isoLegalEcc micro ver := rfl

theorem countBits_eq (micro : Bool) (ver : Nat) (mode : Mode) : countBits micro ver mode = isoCountBits micro ver mode := rfl

theorem modeInd_eq (micro : Bool) (ver : Nat) (mode : Mode) : modeInd micro ver mode = isoModeInd micro ver mode := rfl

theorem termBits_eq (micro : Bool) (ver : Nat) : termBits micro ver = isoTermBits micro ver := rfl

theorem alnum_eq (ch : Byte) : alnum ch = isoAlnum ch := rfl

theorem alignCentres_eq (ver : Nat) : alignCentres ver = isoAlign ver := rfl

/-! ## The format, version and block tables -/

/-- The Normal format table is the BCH construction (44_format_control.md R280). -/
theorem fmtN_constructed : ∀ p < 8, ∀ level ∈ [EccLevel.l, .m, .q, .h], fmtN level p = fmtNConstructed level p := by
  decide +kernel

/-- The Micro format table is the BCH construction (44_format_control.md R281). -/
theorem fmtM_constructed : ∀ a < 4, ∀ ver ∈ [1, 2, 3, 4], ∀ level ∈ legalEcc true ver,
    fmtM ver level a = fmtMConstructed ver level a := by
  decide +kernel

/-- The version table is the BCH construction (44_format_control.md R284). -/
theorem verInfo_constructed : ∀ k < 34, verInfo (7 + k) = verInfoConstructed (7 + k) := by
  decide +kernel

/-- The block table (20_memory.md R82, R83): every legal symbol has between 1 and 4096 codewords, fewer data
codewords, and blocks with 1 to 30 error words. -/
theorem groups_bounds : ∀ micro : Bool, ∀ ver < 41, ∀ level ∈ legalEcc micro ver,
    (micro = true → ver ≤ 4) → 1 ≤ ver →
    1 ≤ ((groups micro ver level).map fun g => g.count * g.data).sum ∧
    ((groups micro ver level).map fun g => g.count * g.total).sum ≤ 3706 ∧
    ∀ g ∈ groups micro ver level, g.data < g.total ∧ g.total - g.data ≤ Config.params.genMax := by
  decide +kernel

end Sys2Proof.Machine
end

