-- ==== Sys2Proof/Laws/Capacity.lean ====
section
/-!
SUPPORT. Sys2Proof/Laws/Capacity.lean: the capacity in characters: PACK accepts a payload valid in its mode exactly
when it has between 1 and `charCapacity` characters, and `charCapacity` gives the table of 20_memory.md R93,
every row of it.
-/

namespace Sys2Proof.Machine

/-! ## How long the segment is -/

theorem numericBits_length (payload : List Byte) :
    (numericBits payload).length = payloadBitCount .numeric payload.length := by
  induction payload using numericBits.induct with
  | case1 => rfl
  | case2 a => simp [numericBits, payloadBitCount]
  | case3 a b => simp [numericBits, payloadBitCount]
  | case4 a b c rest ih =>
    simp only [numericBits, List.length_append, bits_length, ih, payloadBitCount, List.length_cons]
    split_ifs <;> omega

theorem alnumBits_length (payload : List Byte) :
    (alnumBits payload).length = payloadBitCount .alphanumeric payload.length := by
  induction payload using alnumBits.induct with
  | case1 => rfl
  | case2 a => simp [alnumBits, payloadBitCount]
  | case3 a b rest ih =>
    simp only [alnumBits, List.length_append, bits_length, ih, payloadBitCount, List.length_cons]
    omega

theorem byteBits_length (payload : List Byte) : (byteBits payload).length = payloadBitCount .byte payload.length := by
  simp [byteBits, payloadBitCount, Nat.mul_comm]

theorem payloadBits_length (mode : Mode) (payload : List Byte) :
    (payloadBits mode payload).length = payloadBitCount mode payload.length := by
  cases mode with
  | numeric => exact numericBits_length payload
  | alphanumeric => exact alnumBits_length payload
  | byte => exact byteBits_length payload

/-- The length of the segment depends on the payload's length only (41_packer.md R167-R171). -/
theorem segment_length (micro : Bool) (ver : Nat) (mode : Mode) (cb : Nat) (payload : List Byte) :
    (segment micro ver mode cb payload).length =
      (modeInd micro ver mode).1 + cb + payloadBitCount mode payload.length := by
  simp [segment, modeBits, payloadBits_length, Nat.add_assoc]

@[simp] theorem packPayload_length (s : State) : (packPayload s).length = s.plen.toNat := by simp [packPayload]

/-! ## What fits -/

/-- `charsThatFit` is the largest number of characters that fit. -/
theorem payloadBitCount_le_iff (mode : Mode) (n room : Nat) :
    payloadBitCount mode n ≤ room ↔ n ≤ charsThatFit mode room := by
  cases mode with
  | numeric => simp only [payloadBitCount, charsThatFit]; split_ifs <;> omega
  | alphanumeric => simp only [payloadBitCount, charsThatFit]; split_ifs <;> omega
  | byte => simp only [payloadBitCount, charsThatFit]; omega

/-- A payload of at least one character has payload bits. -/
theorem payloadBitCount_pos (mode : Mode) (n : Nat) (h : 1 ≤ n) : 0 < payloadBitCount mode n := by
  cases mode with
  | numeric => simp only [payloadBitCount]; split_ifs <;> omega
  | alphanumeric => simp only [payloadBitCount]; omega
  | byte => simp only [payloadBitCount]; omega

/-- R93's number is the largest payload PACK accepts: with a legal CONFIG, a mode and a length PACK takes, and
characters valid in the mode, no check fails exactly when the payload has between 1 and `charCapacity`
characters (41_packer.md R160, R163, R166, R172). -/
theorem packCheck_eq_none_iff_charCapacity (s : State) (hc : s.config.check = none)
    (hm : s.config.namedMode ≠ none ∨ s.config.auto = true) (hn : s.plen.toNat ≤ 8192)
    (hv : s.config.auto = true ∨ charsValid (packMode s) (packPayload s) = true) :
    packCheck s = none ↔
      ∃ cap, s.config.charCapacity (packMode s) = some cap ∧ 1 ≤ s.plen.toNat ∧ s.plen.toNat ≤ cap := by
  have h1 : ¬ (s.config.namedMode = none ∧ s.config.auto = false) := by
    rintro ⟨h, h'⟩; rcases hm with hm | hm <;> simp_all
  have h2 : ¬ 8192 < s.plen.toNat := by omega
  have h3 : ¬ (s.config.auto = false ∧ charsValid (packMode s) (packPayload s) = false) := by
    rintro ⟨h, h'⟩; rcases hv with hv | hv <;> simp_all
  simp only [packCheck, hc, if_neg h1, if_neg h2, if_neg h3, packSegment, packCountBits, SymbolConfig.charCapacity]
  obtain h | ⟨cb, h⟩ := Option.eq_none_or_eq_some (countBits s.config.micro s.config.ver (packMode s))
  · simp [h]
  · have hfit := payloadBitCount_le_iff (packMode s) s.plen.toNat
      (s.config.capacity - ((modeInd s.config.micro s.config.ver (packMode s)).1 + cb))
    have hpos := payloadBitCount_pos (packMode s) s.plen.toNat
    simp only [h, segment_length, packPayload_length, Option.getD_some, Option.some.injEq, exists_eq_left']
    split_ifs <;> simp <;> omega

/-! ## The table -/

/-- 20_memory.md R93, versions 1 to 10: for the levels L, M, Q, H the bits L and the largest Numeric,
AlphaNumeric and Byte payload. -/
def capacityRowsA : List (List (Nat × Nat × Nat × Nat)) :=
  [[(152, 41, 25, 17), (128, 34, 20, 14), (104, 27, 16, 11), (72, 17, 10, 7)],
   [(272, 77, 47, 32), (224, 63, 38, 26), (176, 48, 29, 20), (128, 34, 20, 14)],
   [(440, 127, 77, 53), (352, 101, 61, 42), (272, 77, 47, 32), (208, 58, 35, 24)],
   [(640, 187, 114, 78), (512, 149, 90, 62), (384, 111, 67, 46), (288, 82, 50, 34)],
   [(864, 255, 154, 106), (688, 202, 122, 84), (496, 144, 87, 60), (368, 106, 64, 44)],
   [(1088, 322, 195, 134), (864, 255, 154, 106), (608, 178, 108, 74), (480, 139, 84, 58)],
   [(1248, 370, 224, 154), (992, 293, 178, 122), (704, 207, 125, 86), (528, 154, 93, 64)],
   [(1552, 461, 279, 192), (1232, 365, 221, 152), (880, 259, 157, 108), (688, 202, 122, 84)],
   [(1856, 552, 335, 230), (1456, 432, 262, 180), (1056, 312, 189, 130), (800, 235, 143, 98)],
   [(2192, 652, 395, 271), (1728, 513, 311, 213), (1232, 364, 221, 151), (976, 288, 174, 119)]]

/-- 20_memory.md R93, versions 11 to 20: for the levels L, M, Q, H the bits L and the largest Numeric,
AlphaNumeric and Byte payload. -/
def capacityRowsB : List (List (Nat × Nat × Nat × Nat)) :=
  [[(2592, 772, 468, 321), (2032, 604, 366, 251), (1440, 427, 259, 177), (1120, 331, 200, 137)],
   [(2960, 883, 535, 367), (2320, 691, 419, 287), (1648, 489, 296, 203), (1264, 374, 227, 155)],
   [(3424, 1022, 619, 425), (2672, 796, 483, 331), (1952, 580, 352, 241), (1440, 427, 259, 177)],
   [(3688, 1101, 667, 458), (2920, 871, 528, 362), (2088, 621, 376, 258), (1576, 468, 283, 194)],
   [(4184, 1250, 758, 520), (3320, 991, 600, 412), (2360, 703, 426, 292), (1784, 530, 321, 220)],
   [(4712, 1408, 854, 586), (3624, 1082, 656, 450), (2600, 775, 470, 322), (2024, 602, 365, 250)],
   [(5176, 1548, 938, 644), (4056, 1212, 734, 504), (2936, 876, 531, 364), (2264, 674, 408, 280)],
   [(5768, 1725, 1046, 718), (4504, 1346, 816, 560), (3176, 948, 574, 394), (2504, 746, 452, 310)],
   [(6360, 1903, 1153, 792), (5016, 1500, 909, 624), (3560, 1063, 644, 442), (2728, 813, 493, 338)],
   [(6888, 2061, 1249, 858), (5352, 1600, 970, 666), (3880, 1159, 702, 482), (3080, 919, 557, 382)]]

/-- 20_memory.md R93, versions 21 to 30: for the levels L, M, Q, H the bits L and the largest Numeric,
AlphaNumeric and Byte payload. -/
def capacityRowsC : List (List (Nat × Nat × Nat × Nat)) :=
  [[(7456, 2232, 1352, 929), (5712, 1708, 1035, 711), (4096, 1224, 742, 509), (3248, 969, 587, 403)],
   [(8048, 2409, 1460, 1003), (6256, 1872, 1134, 779), (4544, 1358, 823, 565), (3536, 1056, 640, 439)],
   [(8752, 2620, 1588, 1091), (6880, 2059, 1248, 857), (4912, 1468, 890, 611), (3712, 1108, 672, 461)],
   [(9392, 2812, 1704, 1171), (7312, 2188, 1326, 911), (5312, 1588, 963, 661), (4112, 1228, 744, 511)],
   [(10208, 3057, 1853, 1273), (8000, 2395, 1451, 997), (5744, 1718, 1041, 715), (4304, 1286, 779, 535)],
   [(10960, 3283, 1990, 1367), (8496, 2544, 1542, 1059), (6032, 1804, 1094, 751), (4768, 1425, 864, 593)],
   [(11744, 3517, 2132, 1465), (9024, 2701, 1637, 1125), (6464, 1933, 1172, 805), (5024, 1501, 910, 625)],
   [(12248, 3669, 2223, 1528), (9544, 2857, 1732, 1190), (6968, 2085, 1263, 868), (5288, 1581, 958, 658)],
   [(13048, 3909, 2369, 1628), (10136, 3035, 1839, 1264), (7288, 2181, 1322, 908), (5608, 1677, 1016, 698)],
   [(13880, 4158, 2520, 1732), (10984, 3289, 1994, 1370), (7880, 2358, 1429, 982), (5960, 1782, 1080, 742)]]

/-- 20_memory.md R93, versions 31 to 40: for the levels L, M, Q, H the bits L and the largest Numeric,
AlphaNumeric and Byte payload. -/
def capacityRowsD : List (List (Nat × Nat × Nat × Nat)) :=
  [[(14744, 4417, 2677, 1840), (11640, 3486, 2113, 1452), (8264, 2473, 1499, 1030), (6344, 1897, 1150, 790)],
   [(15640, 4686, 2840, 1952), (12328, 3693, 2238, 1538), (8920, 2670, 1618, 1112), (6760, 2022, 1226, 842)],
   [(16568, 4965, 3009, 2068), (13048, 3909, 2369, 1628), (9368, 2805, 1700, 1168), (7208, 2157, 1307, 898)],
   [(17528, 5253, 3183, 2188), (13800, 4134, 2506, 1722), (9848, 2949, 1787, 1228), (7688, 2301, 1394, 958)],
   [(18448, 5529, 3351, 2303), (14496, 4343, 2632, 1809), (10288, 3081, 1867, 1283), (7888, 2361, 1431, 983)],
   [(19472, 5836, 3537, 2431), (15312, 4588, 2780, 1911), (10832, 3244, 1966, 1351), (8432, 2524, 1530, 1051)],
   [(20528, 6153, 3729, 2563), (15936, 4775, 2894, 1989), (11408, 3417, 2071, 1423), (8768, 2625, 1591, 1093)],
   [(21616, 6479, 3927, 2699), (16816, 5039, 3054, 2099), (12016, 3599, 2181, 1499), (9136, 2735, 1658, 1139)],
   [(22496, 6743, 4087, 2809), (17728, 5313, 3220, 2213), (12656, 3791, 2298, 1579), (9776, 2927, 1774, 1219)],
   [(23648, 7089, 4296, 2953), (18672, 5596, 3391, 2331), (13328, 3993, 2420, 1663), (10208, 3057, 1852, 1273)]]

/-- R93, the Micro rows: a CONFIG with the symbol and level, the bits L, and the largest Numeric, AlphaNumeric and Byte
payload, none where the mode is not supported. -/
def microCapacityRows : List (SymbolConfig × Nat × Option Nat × Option Nat × Option Nat) :=
  [(⟨true, 1#6, 0#3, 0#3⟩, 20, some 5, none, none),
   (⟨true, 2#6, 1#3, 0#3⟩, 40, some 10, some 6, none),
   (⟨true, 2#6, 2#3, 0#3⟩, 32, some 8, some 5, none),
   (⟨true, 3#6, 1#3, 0#3⟩, 84, some 23, some 14, some 9),
   (⟨true, 3#6, 2#3, 0#3⟩, 68, some 18, some 11, some 7),
   (⟨true, 4#6, 1#3, 0#3⟩, 128, some 35, some 21, some 15),
   (⟨true, 4#6, 2#3, 0#3⟩, 112, some 30, some 18, some 13),
   (⟨true, 4#6, 3#3, 0#3⟩, 80, some 21, some 13, some 9)]

/-- A Normal CONFIG of a version and an ECC field. -/
def normalConfig (ver ecc : Nat) : SymbolConfig := ⟨false, BitVec.ofNat 6 ver, BitVec.ofNat 3 ecc, 0#3⟩

/-- Every Normal row of R93 is what the model computes. -/
theorem capacity_normal : ∀ v < 40, ∀ e < 4,
    let row := ((capacityRowsA ++ capacityRowsB ++ capacityRowsC ++ capacityRowsD).getD v []).getD e (0, 0, 0, 0)
    let c := normalConfig (v + 1) (e + 1)
    c.check = none ∧ c.capacity = row.1 ∧ c.charCapacity .numeric = some row.2.1 ∧
      c.charCapacity .alphanumeric = some row.2.2.1 ∧ c.charCapacity .byte = some row.2.2.2 := by
  decide +kernel

/-- Every Micro row of R93 is what the model computes. -/
theorem capacity_micro : ∀ row ∈ microCapacityRows,
    row.1.check = none ∧ row.1.capacity = row.2.1 ∧ row.1.charCapacity .numeric = row.2.2.1 ∧
      row.1.charCapacity .alphanumeric = row.2.2.2.1 ∧ row.1.charCapacity .byte = row.2.2.2.2 := by
  decide +kernel

/-- The one point QRS gives: 2953 bytes in 40-L. -/
theorem capacity_40L_byte : (normalConfig 40 1).charCapacity .byte = some 2953 := by decide +kernel

end Sys2Proof.Machine
end

