-- ==== Sys2Proof/Laws/PerInstr.lean ====
section
/-!
SUPPORT. Sys2Proof/Laws/PerInstr.lean: what holds of every command as syntax, one lemma for each constructor.
-/

namespace Sys2Proof.Laws.EncodedWord

open Sys2Proof

/-- The word of a command passes the three checks of 30_encoding.md R106 and has the command's opcode and
immediate in their fields. -/
def Statement (i : Instr) : Prop :=
  CommandWord.wellFormed (Sys2Proof.encode i) = true ∧ CommandWord.op (Sys2Proof.encode i) = i.opcode ∧
  CommandWord.imm (Sys2Proof.encode i) = i.immediate ∧ CommandWord.rsv (Sys2Proof.encode i) = 0#21

theorem nop : Statement .nop := by unfold Statement; decide

theorem pack : Statement .pack := by unfold Statement; decide

theorem gfmul : Statement .gfmul := by unfold Statement; decide

theorem rsenc : Statement .rsenc := by unfold Statement; decide

theorem eccgen : Statement .eccgen := by unfold Statement; decide

theorem reserve : Statement .reserve := by unfold Statement; decide

theorem fill : Statement .fill := by unfold Statement; decide

theorem maskapply (p : BitVec 3) : Statement (.maskapply p) := by
  revert p; unfold Statement; decide

theorem maskscore (p : BitVec 3) : Statement (.maskscore p) := by
  revert p; unfold Statement; decide

theorem masksel : Statement .masksel := by unfold Statement; decide

theorem format : Statement .format := by unfold Statement; decide

theorem encode : Statement .encode := by unfold Statement; decide

end Sys2Proof.Laws.EncodedWord
end

