-- ==== Sys2Proof/Tests/Slice0.lean ====
section
/-!
SUPPORT. Sys2Proof/Tests/Slice0.lean: the model's own tests. Expected values come from spec/95_test_vectors.md
and from the worked examples of the rules, named at each test. After them, for every statement of
Certificates/Slice0/Obligations.lean that has hypotheses, a state and operands that meet them.
-/

namespace Sys2Proof.Tests

open Sys2Proof Sys2Proof.Machine

/-! ## Well-formed words: each check refuses an ill-formed word, and nothing else refuses it -/

theorem test_wf_refuses_unknown_opcode :
    CommandWord.wellFormed 0x00000011#32 = false ∧ CommandWord.opKnown 0x00000011#32 = false ∧
    CommandWord.rsvZero 0x00000011#32 = true ∧ CommandWord.immAllowed 0x00000011#32 = true := by decide

theorem test_wf_refuses_reserved_bits :
    CommandWord.wellFormed 0x00000800#32 = false ∧ CommandWord.opKnown 0x00000800#32 = true ∧
    CommandWord.rsvZero 0x00000800#32 = false ∧ CommandWord.immAllowed 0x00000800#32 = true := by decide

theorem test_wf_refuses_immediate :
    CommandWord.wellFormed 0x00000142#32 = false ∧ CommandWord.opKnown 0x00000142#32 = true ∧
    CommandWord.rsvZero 0x00000142#32 = true ∧ CommandWord.immAllowed 0x00000142#32 = false := by decide

theorem test_wf_accepts : CommandWord.wellFormed 0x00000740#32 = true ∧ CommandWord.wellFormed 0#32 = true := by
  decide

/-! ## Decoding: words written out bit by bit, RSV[31:11] IMM[10:8] OP[7:0] (30_encoding.md R100, R104) -/

theorem test_decode_control :
    decode 0b00000000000000000000000000000000#32 = .ok .nop ∧
    decode 0b00000000000000000000000001100000#32 = .ok .encode := by decide

theorem test_decode_packer_and_field :
    decode 0b00000000000000000000000000010000#32 = .ok .pack ∧
    decode 0b00000000000000000000000000100000#32 = .ok .gfmul ∧
    decode 0b00000000000000000000000000100001#32 = .ok .rsenc ∧
    decode 0b00000000000000000000000000100010#32 = .ok .eccgen := by decide

theorem test_decode_matrix_and_metadata :
    decode 0b00000000000000000000000000110000#32 = .ok .reserve ∧
    decode 0b00000000000000000000000000110001#32 = .ok .fill ∧
    decode 0b00000000000000000000000001010000#32 = .ok .format := by decide

theorem test_decode_mask :
    decode 0b00000000000000000000010101000000#32 = .ok (.maskapply 5#3) ∧
    decode 0b00000000000000000000001101000001#32 = .ok (.maskscore 3#3) ∧
    decode 0b00000000000000000000000001000010#32 = .ok .masksel := by decide

/-- DC5 to DC9 of 95_test_vectors.md: what STATUS reads after an illegal word. -/
theorem test_illegal_words :
    [0x142, 0x11, 0x800, 0xFF, 0x80000060].map (fun w =>
      match step (State.reset.withFetchWord 32 w) with
      | .next t => t.statusWord.toNat
      | .fault _ => 0
      | .refused _ => 0) = [0x00420706, 0x00110706, 0x00000706, 0x00FF0706, 0x00600706] := by decide +kernel

/-! ## States for the tests -/

/-- The state a command leaves. -/
def after (i : Instr) (s : State) : State :=
  match exec i s with
  | .next t => t
  | .fault _ => s
  | .refused _ => s

/-- CONFIG and payload loaded. -/
def loaded (config : Word) (payload : List Byte) : State :=
  { State.reset.store pbufBase payload with
    config := SymbolConfig.ofWord config
    plen := BitVec.ofNat 16 payload.length }

/-- "12345" as M1 (program P3). -/
def m1Loaded : State := loaded 0x00000101#32 [0x31#8, 0x32#8, 0x33#8, 0x34#8, 0x35#8]

/-- The codewords of EG3 in CWBUF, after RESERVE, as P3 has them before FILL. -/
def m1Reserved : State :=
  { (loaded 0x00000101#32 []).store cwbufBase [0xA3#8, 0xDA#8, 0xD0#8, 0x6E#8, 0xC7#8] with
    mod := reservedMod m1Loaded.config
    res := reservedRes m1Loaded.config
    stage := { Stage.none with p := true, e := true, r := true } }

/-- P3 before MASKSEL. -/
def m1Filled : State := after .fill m1Reserved

/-- 0 and 1 as a row of modules. -/
def row (l : List Nat) : List Bool := l.map fun n => n == 1

/-! ## One step of each command -/

/-- DC1. -/
theorem test_nop : (after .nop State.reset).statusWord = 0x00000002#32 := by decide

/-- PK1: "01234567" as Normal 1-M Numeric. -/
theorem test_pack_numeric :
    let t := after .pack (loaded 0x00020100#32 [0x30#8, 0x31#8, 0x32#8, 0x33#8, 0x34#8, 0x35#8, 0x36#8, 0x37#8])
    (List.range 16).map t.dbuf = [0x10#8, 0x20#8, 0x0C#8, 0x56#8, 0x61#8, 0x80#8, 0xEC#8, 0x11#8, 0xEC#8, 0x11#8,
      0xEC#8, 0x11#8, 0xEC#8, 0x11#8, 0xEC#8, 0x11#8] ∧ t.segbits = 41#16 ∧ t.ndcw = 16#16 := by decide +kernel

/-- PK12: "QR" as M4-Q, AUTO. -/
theorem test_pack_auto :
    let t := after .pack (loaded 0x07030401#32 [0x51#8, 0x52#8])
    (List.range 10).map t.dbuf = [0x22#8, 0x95#8, 0xA0#8, 0x00#8, 0xEC#8, 0x11#8, 0xEC#8, 0x11#8, 0xEC#8, 0x11#8] ∧
      t.modeused = 1#3 ∧ t.segbits = 19#16 := by decide +kernel

/-- 40_gf_rs.md R135, corner cases. -/
theorem test_gfmul :
    (after .gfmul { State.reset with arg0 := 0xFF#32, arg1 := 0xFF#32 }).gfres = 0xE2#8 ∧
    (after .gfmul { State.reset with arg0 := 0x12345602#32, arg1 := 0xABCDEF80#32 }).gfres = 0x1D#8 := by decide +kernel

/-- RS8, with the destination of program P1. -/
theorem test_rsenc :
    let t := after .rsenc { State.reset.store dbufBase [0x40#8, 0xD2#8, 0x75#8, 0x47#8] with
      arg1 := 4#32, arg2 := 7#32, arg3 := 16#32 }
    (List.range 7).map (fun i => t.cwbuf (16 + i)) =
      [0xA8#8, 0xAE#8, 0x62#8, 0x3B#8, 0xE0#8, 0x5D#8, 0x42#8] := by decide +kernel

/-- RSENC errors: d + n = 4097. -/
theorem test_rsenc_error :
    (after .rsenc { State.reset with arg1 := 4#32, arg2 := 7#32, arg3 := 4090#32 }).statusWord = 0x00210806#32 := by
  decide +kernel

/-- EG3, EG7: the low nibble of DBUF[2] is ignored. -/
theorem test_eccgen :
    let t := after .eccgen { State.reset.store dbufBase [0xA3#8, 0xDA#8, 0xD7#8] with
      config := SymbolConfig.ofWord 0x00000101#32, stage := { Stage.none with p := true } }
    (List.range 5).map t.cwbuf = [0xA3#8, 0xDA#8, 0xD0#8, 0x6E#8, 0xC7#8] ∧ t.ncw = 5#16 := by decide +kernel

/-- P3, the grid after RESERVE; 85 reserved cells. -/
theorem test_reserve :
    let t := after .reserve m1Loaded
    (symbolRows t).getD 0 [] = row [1, 1, 1, 1, 1, 1, 1, 0, 1, 0, 1] ∧
    (symbolRows t).getD 8 [] = row [1, 0, 0, 0, 0, 0, 0, 0, 0, 0, 0] ∧
    ((squareCells 11).countP fun k => t.resAt k.1 k.2) = 85 := by decide +kernel

/-- P3, the grid after FILL. -/
theorem test_fill :
    let t := after .fill m1Reserved
    (symbolRows t).getD 9 [] = row [0, 1, 1, 1, 1, 0, 1, 1, 0, 0, 1] ∧
    (symbolRows t).getD 10 [] = row [1, 1, 0, 0, 0, 1, 1, 0, 1, 0, 1] := by decide +kernel

/-- 43_mask.md R250, example: MASKAPPLY 1 on Normal version 1 after RESERVE. -/
theorem test_maskapply :
    let t := after (.maskapply 1#3) (after .reserve (loaded 0x00020100#32 []))
    t.modAt 20 20 = true ∧ t.modAt 19 20 = false ∧ t.stage.m = false := by decide +kernel

/-- 43_mask.md R252, example: the score of pattern 6 is 102. -/
theorem test_maskscore : (after (.maskscore 6#3) m1Filled).score = 102#32 := by decide +kernel

/-- P3: MASKID 0x206, SCORE 102, MSCORE4 55, and row 10 of the grid after MASKSEL. -/
theorem test_masksel :
    let t := after .masksel m1Filled
    t.maskid.toWord = 0x206#32 ∧ t.score = 102#32 ∧ t.mscore.m4 = 55#32 ∧ t.mscore.m0 = 0#32 ∧
    (symbolRows t).getD 10 [] = row [1, 1, 1, 1, 0, 0, 0, 0, 0, 1, 1] := by decide +kernel

/-- 44_format_control.md R285, example: f = 0x4E2B, bit 0 in (8, 1), bit 14 in (1, 8); row 8 of P3. -/
theorem test_format :
    let t := after .format { m1Reserved with
      maskid := MaskId.ofWord 0x206#32, stage := { m1Reserved.stage with f := true, m := true } }
    (List.range 9).map (fun k => t.modAt 8 (k + 1)) = row [1, 1, 0, 1, 0, 1, 0, 0, 0] ∧
    t.modAt 1 8 = true ∧ t.stage.t = true := by decide +kernel

/-- P3's end state, by ENCODE. -/
theorem test_encode :
    let t := after .encode m1Loaded
    t.statusWord = 0x00000002#32 ∧ t.stage.toWord = 0x3F#32 ∧ t.maskid.toWord = 0x206#32 ∧
    (symbolRows t).getD 5 [] = row [1, 0, 0, 0, 0, 0, 1, 0, 1, 1, 1] := by decide +kernel

/-- P4: ENCODE after reset stops in PACK. -/
theorem test_encode_error : (after .encode State.reset).statusWord = 0x00100406#32 := by decide +kernel

/-! ## The host's side -/

/-- P5: while a command is pending, a CMD write and a buffer access are access errors; the command still runs. -/
theorem test_busy_hazard :
    let s := hostAccess (.write 0x04#20 0#32) (hostAccess (.write 0x04#20 0x31#32) State.reset)
    s.statusWord = 0x00000009#32 ∧ s.cmd = 0x31#32 ∧ (hostAccess (.read 0x2000#20) s).readData = 0#32 := by decide

/-- The expansion of LOADSTR "12345" (program P3). -/
theorem test_loadstr :
    loadStr [0x31#8, 0x32#8, 0x33#8, 0x34#8, 0x35#8] =
      [.write 0x02000#20 0x34333231#32, .write 0x02004#20 0x00000035#32, .write 0x14#20 5#32] := by decide

/-- CONFIG words of L2.1: M2-L AlphaNumeric, and the word whose reserved bits are not stored. -/
theorem test_config_words :
    setcfg ⟨true, 2#6, 1#3, 1#3⟩ = .write 0x10#20 0x01010201#32 ∧
    (SymbolConfig.ofWord 0x00FF0100#32).toWord = 0x00070100#32 := by decide

/-- P1: the ROM word at 0x06000 and GEN[7][0..3]. -/
theorem test_rom_words :
    State.reset.readWord 0x6000#20 = 0x08040201#32 ∧
    State.reset.readWord 0x62E0#20 = 0x9A7A7F01#32 := by decide +kernel

/-! ## Witnesses: hypotheses of the statements that are met

Each theorem is named after its statement. Where a statement has several clauses, the values are at the ends of
their ranges. -/

/-- A legal CONFIG: Normal 1-M. -/
def n1 : State := loaded 0x00020100#32 [0x31#8]

/-- Normal 40-L and Normal 7-L, and M1 and M4-Q, the ends of the version ranges. -/
def n40 : State := loaded 0x00012800#32 []

def n7 : State := loaded 0x00010700#32 []

def m4 : State := loaded 0x00030401#32 []

/-- An illegal version and an illegal level. -/
def badVersion : State := loaded 0x00012900#32 []

def badLevel : State := loaded 0x00050100#32 []

/-- A state with a command pending. -/
def busyState : State := acceptCommand 0x00000031#32 State.reset

/-- A state with every stage bit but the given ones. -/
def stages (s : State) (st : Stage) : State := { s with stage := st }

theorem legal_states : n1.configLegal ∧ n40.configLegal ∧ n7.configLegal ∧ m1Loaded.configLegal ∧ m4.configLegal := by
  unfold State.configLegal; decide

theorem illegal_states :
    badVersion.config.versionOK = false ∧ badLevel.config.versionOK = true ∧ badLevel.config.eccOK = false := by decide

theorem witness_DecodeAndEncodeAgree : decode 0x00000740#32 = .ok (.maskapply 7#3) := by decide

theorem witness_EveryWordIsOneCommandOrIllegal :
    (acceptCommand 0x00000740#32 State.reset).pending = some 0x00000740#32 ∧
    (acceptCommand 0x00000740#32 State.reset).agenda = [] ∧
    (acceptCommand 0x00000142#32 State.reset).pending = some 0x00000142#32 := by decide

theorem witness_StepRunsTheDecodedCommand :
    busyState.pending = some 0x00000031#32 ∧ decode 0x00000031#32 = .ok .fill ∧ busyState.agenda = [] ∧
    decode (tableWord 32 0x741) = .ok (.maskscore 7#3) ∧ State.reset.pending = none := by decide

theorem witness_NoStepStopsAndPendingCommandsRun : busyState.agenda = [] := by decide

theorem witness_WaitSeesTheCommandComplete :
    ({ busyState with agenda := waitTurns 2 } : State).agenda = waitTurns 2 ++ [] ∧ busyState.pending ≠ none := by decide

theorem witness_CommandsWriteOnlyWhatTheMapSays : exec .nop State.reset = .next (after .nop State.reset) := rfl

theorem witness_BusyChangesOnlyByIssueCompletionReset :
    ∃ t u, step { State.reset with agenda := [.host (.write 0x07#20 0x31#32)] } = .next t ∧ t.busy = true ∧
      step busyState = .next u ∧ busyState.busy = true ∧ u.busy = false := ⟨_, _, rfl, rfl, rfl, rfl, rfl⟩

theorem witness_AfterResetOnlyConfigFreeCommandsWork :
    badVersion.config.versionOK = false ∧ Instr.encode ∉ [Instr.nop, .gfmul, .rsenc] ∧
    (1 ≤ (30#32).toNat ∧ (30#32).toNat ≤ 30 ∧ (4000#32).toNat + (96#32).toNat ≤ 4096 ∧
      (4066#32).toNat + (30#32).toNat ≤ 4096) := by decide

theorem witness_InterruptFollowsDone :
    wordBase 0x0B#20 = 0x08 ∧ (0x2#32).getLsbD 1 = true ∧ wordBase 0x04#20 = 0x04 ∧ State.reset.busy = false ∧
    wordBase 0x0C#20 = 0x0C ∧ (0x1#32).getLsbD 31 = false ∧ (0x1#32).getLsbD 0 = true ∧
    (0x80000000#32).getLsbD 0 = false ∧ (after .nop State.reset).status.done = true := by decide

theorem witness_NopOnlyCompletes :
    (0x00000100#32).extractLsb' 0 8 = 0#8 ∧ (0x00000100#32) ≠ 0#32 ∧ State.reset.status.accerr = false := by decide

theorem witness_GfmulWritesTheProduct :
    (0x80#8).toNat = (0xABCDEF80#32).toNat % 256 ∧ (0x00#8).toNat = (0xFFFFFF00#32).toNat % 256 := by decide

theorem witness_GeneratorsHaveTheirRoots : (1 ≤ 1 ∧ 1 ≤ 30) ∧ (1 ≤ 30 ∧ 30 ≤ 30) := by decide

theorem witness_ParityMakesACodeword : (1 ≤ 1 ∧ 1 ≤ 30) ∧ (1 ≤ 30 ∧ 30 ≤ 30) := by decide

theorem witness_RsencWritesTheRemainder :
    ((0#32).toNat < 1 ∨ 30 < (31#32).toNat ∨ 4096 < (4000#32).toNat + (97#32).toNat) ∧
    1 ≤ (30#32).toNat ∧ (30#32).toNat ≤ 30 ∧ (4096#32).toNat + (0#32).toNat ≤ 4096 ∧
    (4066#32).toNat + (30#32).toNat ≤ 4096 := by decide

/-- Blocks of two lengths: byte 2 of the last, which only the longer blocks have. -/
theorem witness_InterleaveTakesTurns :
    let lists := [[1#8, 2#8], [3#8, 4#8, 5#8], [6#8, 7#8, 8#8]]
    2 < lists.length ∧ 2 < (lists.getD 2 []).length := by decide

/-- 40_gf_rs.md R139: the shorter block drops out. -/
theorem test_interleave : interleave [[1#8, 2#8], [3#8, 4#8, 5#8], [6#8, 7#8, 8#8]] =
    [1#8, 3#8, 6#8, 2#8, 4#8, 7#8, 5#8, 8#8] := by decide

theorem witness_EccgenWritesTheFinalSequence :
    badVersion.config.versionOK = false ∧ badLevel.config.eccOK = false ∧ n1.stage.p = false ∧
    (stages n40 Stage.none.afterPack).stage.p = true ∧ m1Loaded.config.nibbleShort = true := by decide

/-- Normal 1-M and the nibble-short M1. -/
theorem witness_OneBlockSymbolIsDataThenParity :
    (stages n1 Stage.none.afterPack).stage.p = true ∧ n1.config.groups = [⟨1, 26, 16⟩] ∧
    (stages m1Loaded Stage.none.afterPack).stage.p = true ∧ m1Loaded.config.groups = [⟨1, 5, 3⟩] ∧
    m1Loaded.config.nibbleShort = true := by decide

theorem witness_AutoPicksTheTightestMode :
    charsValid .alphanumeric [0x3A#8, 0x5A#8] = true ∧ charsValid .numeric [] = true ∧ alnum 0x80#8 = none := by decide

/-- The payload of P3 is accepted; it fills L exactly. -/
theorem m1Loaded_accepted : packAccepts m1Loaded :=
  ⟨legal_states.2.2.2.1, by decide, by decide, fun _ => by decide +kernel, 3, by decide +kernel, by decide, by decide,
    by decide +kernel⟩

theorem witness_PackStreamFillsTheCapacity : packAccepts m1Loaded := m1Loaded_accepted

/-- "QR" as M4-Q in AUTO mode (PK12). -/
def m4Auto : State := loaded 0x07030401#32 [0x51#8, 0x52#8]

theorem m4Auto_accepted : packAccepts m4Auto :=
  ⟨by unfold State.configLegal; decide, by decide, by decide, fun h => absurd h (by decide), 5, by decide +kernel,
    by decide, by decide, by decide +kernel⟩

/-- With the mode named, and with AUTO. -/
theorem witness_PackWritesTheStream :
    packAccepts m1Loaded ∧ m1Loaded.config.mode.toNat ≤ 2 ∧ packAccepts m4Auto ∧ m4Auto.config.mode.toNat = 7 :=
  ⟨m1Loaded_accepted, by decide, m4Auto_accepted, by decide⟩

/-- M1 and Normal 40 with the ends of the mode range, and both payloads above. -/
theorem witness_SegmentBitsFollowTheRules :
    m1Loaded.config.versionOK = true ∧ n40.config.versionOK = true ∧ m1Loaded.config.mode = 0#3 ∧
    (loaded 0x01020100#32 []).config.mode = 1#3 ∧ (loaded 0x02020100#32 []).config.mode = 2#3 ∧
    m4Auto.config.mode = 7#3 ∧ packAccepts m1Loaded ∧ packAccepts m4Auto :=
  ⟨by decide, by decide, by decide, by decide, by decide, by decide, m1Loaded_accepted, m4Auto_accepted⟩

/-- PK13 to PK23, one for each check. -/
theorem witness_PackReportsItsFirstFailingCheck :
    (loaded 0x03020100#32 [0x41#8]).config.mode.toNat ∈ [3, 4, 5, 6] ∧
    8192 < ({ n1 with plen := 8193#16 } : State).plen.toNat ∧
    charsValid (packMode (loaded 0x00020100#32 [0x31#8, 0x32#8, 0x41#8]))
      (packPayload (loaded 0x00020100#32 [0x31#8, 0x32#8, 0x41#8])) = false ∧
    countBits true 1 (packMode (loaded 0x07000101#32 [0x41#8])) = none ∧
    countBits true 1 (packMode m1Loaded) = some 3 ∧
    (2 ^ 3 - 1 < (loaded 0x00000101#32 (List.replicate 8 0x31#8)).plen.toNat) ∧
    (loaded 0x00000101#32 (List.replicate 6 0x31#8)).config.capacity <
      (packSegment (loaded 0x00000101#32 (List.replicate 6 0x31#8))).length := by decide +kernel

theorem witness_SegmentDeterminesThePayload :
    charsValid .numeric [0x39#8, 0x30#8] = true ∧ [0x39#8, 0x30#8].length < 2 ^ 2 ∧
    segment true 1 .numeric 2 [0x39#8, 0x30#8] = segment true 1 .numeric 2 [0x39#8, 0x30#8] := by decide

theorem witness_ReserveClearsAndDrawsTheGrid :
    badVersion.config.versionOK = false ∧ badLevel.config.eccOK = false ∧ m4.config.check = none := by decide

theorem witness_FunctionPatternsStandInTheGrid :
    n40.config.check = none ∧ n40.config.micro = false ∧ 7 ≤ n7.config.ver ∧ 8 ≤ n40.config.dim - 9 ∧
    m1Loaded.config.check = none ∧ m1Loaded.config.micro = true ∧ 8 ≤ m1Loaded.config.dim - 1 ∧
    (170 ∈ alignCentres 40) ∧ (170, 170) ∉ [(6, 6), (6, 170), (170, 6)] := by decide

theorem witness_FreeCellCount : n40.config.check = none ∧ m1Loaded.config.check = none := by decide

/-- The last column pair and the last row of it, in Normal 40, Normal 1 and M1. -/
theorem witness_TraversalVisitsEachCellOnce :
    n40.config.versionOK = true ∧ 87 < (n40.config.dim - 1) / 2 ∧ 176 < n40.config.dim ∧
    n1.config.versionOK = true ∧ 9 < (n1.config.dim - 1) / 2 ∧ 20 < n1.config.dim ∧
    m1Loaded.config.versionOK = true ∧ 4 < (m1Loaded.config.dim - 1) / 2 ∧ 10 < m1Loaded.config.dim := by decide

/-- 42_matrix.md R212: the turn from the first column pair into the next in M1, and over the skipped column 6 in
Normal 1. -/
theorem test_traversal :
    ((traversal true 11).drop 20).take 4 = [(0, 10), (0, 9), (0, 8), (0, 7)] ∧
    ((traversal false 21).drop (2 * 21 * 7 - 1)).take 2 = [(0, 7), (0, 5)] := by decide +kernel

/-- In M1 the last data codeword, 2 of 5, gives four bits. -/
theorem witness_FillPlacesTheBits :
    m1Loaded.stage.e = false ∧ m1Reserved.config.check = none ∧ m1Reserved.stage.e = true ∧
    m1Reserved.stage.r = true ∧ m1Reserved.config.nTotal = 5 ∧ m1Reserved.config.nibbleShort = true ∧
    2 = m1Reserved.config.nData - 1 := by decide +kernel

theorem witness_FillAfterReservePlacesEveryBit :
    m1Reserved.config.check = none ∧ m1Reserved.stage.e = true := by decide +kernel

/-- Normal with any pattern, Micro with 1 and 7; 0 and 5 have no alternate id. -/
theorem witness_MaskapplyTogglesTheFreeCells :
    maskAccepts 0 (stages n40 Stage.none.afterReserve) ∧ maskAccepts 7 (stages m4 Stage.none.afterReserve) ∧
    maskAccepts 1 (stages m1Loaded Stage.none.afterReserve) ∧ n40.stage.r = false ∧
    (0#3).toNat ∉ [1, 4, 6, 7] ∧ (5#3).toNat ∉ [1, 4, 6, 7] := by
  unfold maskAccepts State.configLegal; decide

theorem witness_MaskscoreWritesTheScore :
    maskAccepts 5 (stages n40 Stage.none.afterReserve) ∧ maskAccepts 4 (stages m4 Stage.none.afterReserve) ∧
    n40.stage.r = false ∧ (3#3).toNat ∉ [1, 4, 6, 7] := by
  unfold maskAccepts State.configLegal; decide

theorem witness_BlockPenaltyCountsEqualSquares :
    [[true, true], [true, true]].length = 2 ∧ ∀ r ∈ [[true, true], [true, true]], r.length = 2 := by decide

theorem witness_BalancePenaltyIsExact : 0 < 177 := by decide

theorem witness_ScoresStayInBounds : n40.config.check = none ∧ m4.config.check = none := by decide

theorem witness_MaskselPicksTheFirstBest :
    (stages n40 Stage.none.afterReserve).stage.f = false ∧
    (stages n40 Stage.none.afterReserve.afterFill.afterMasksel).stage.m = true ∧
    (stages m4 Stage.none.afterReserve.afterFill).stage.r = true ∧
    (stages m4 Stage.none.afterReserve.afterFill).stage.f = true ∧
    (stages m4 Stage.none.afterReserve.afterFill).stage.m = false := by decide

theorem witness_MaskselDependsOnTheGridOnly :
    let s := stages n40 Stage.none.afterReserve.afterFill
    let s' : State := { s with score := 5#32, maskid := ⟨3#3, 1#2⟩ }
    s.stage.f = true ∧ s'.config = s.config ∧ s'.stage = s.stage ∧
    (∀ r c, s'.modAt r c = s.modAt r c) ∧ (∀ r c, s'.resAt r c = s.resAt r c) :=
  ⟨rfl, rfl, rfl, fun _ _ => rfl, fun _ _ => rfl⟩

theorem witness_FormatWritesItsWords :
    (stages n7 Stage.none.afterReserve).stage.m = false ∧
    (stages n7 Stage.none.afterReserve.afterMasksel).stage.r = true ∧
    (stages n7 Stage.none.afterReserve.afterMasksel).stage.m = true ∧ n7.config.level = some .l ∧
    m1Loaded.config.level = some .none := by decide

theorem witness_EncodeIsItsSixStages :
    (after .pack State.reset).status.err = true ∧ packAccepts m1Loaded := ⟨by decide, m1Loaded_accepted⟩

theorem witness_AddressLowBitsAreIgnored :
    (0xFFFFC#20).toNat = (0xFFFFF#20).toNat - (0xFFFFF#20).toNat % 4 := by decide

/-- The clauses at the ends of the regions of 20_memory.md R61. -/
theorem witness_AccessErrorsDoNothingElse :
    busyState.busy = true ∧ regionOf (wordBase 0x04#20) = .csr ∧ wordBase 0xFC#20 ∉ [0x08, 0x0C] ∧
    regionOf (wordBase 0x02000#20) = .buffer ∧ regionOf (wordBase 0x05FFF#20) = .buffer ∧
    regionOf (wordBase 0x06000#20) = .rom ∧ regionOf (wordBase 0x065FF#20) = .rom ∧
    regionOf (wordBase 0x10000#20) = .grid ∧ regionOf (wordBase 0x1FFFF#20) = .grid ∧
    regionOf (wordBase 0x00100#20) = .unmapped ∧ regionOf (wordBase 0x01FFF#20) = .unmapped ∧
    regionOf (wordBase 0x06600#20) = .unmapped ∧ regionOf (wordBase 0x0FFFF#20) = .unmapped ∧
    regionOf (wordBase 0x20000#20) = .unmapped ∧ regionOf (wordBase 0xFFFFF#20) = .unmapped ∧
    wordBase 0x1C#20 ∉ [0x04, 0x08, 0x0C, 0x10, 0x14, 0x18, 0x24, 0x40, 0x44, 0x48, 0x4C] ∧
    State.reset.accessError.status.accerr = true ∧
    (hostAccess (.write 0x08#20 0x8#32) State.reset.accessError).status.accerr = false := by decide

theorem witness_ReadsHaveNoSideEffect :
    State.reset.busy = false ∧ regionOf (wordBase 0xFF#20) = .csr ∧ csrAt (wordBase 0xFF#20) = none ∧
    csrAt (wordBase 0x3C#20) = none ∧ regionOf (wordBase 0x100#20) = .unmapped := by decide

theorem witness_BufferWordReadsBack :
    State.reset.busy = false ∧ regionOf (wordBase 0x05FFC#20) = .buffer ∧ regionOf (wordBase 0x02003#20) = .buffer := by
  decide

/-- The last word with a real cell in row 0, a phantom word, and the last word of the region. -/
theorem witness_GridWordReadsBack :
    State.reset.busy = false ∧ regionOf (wordBase 0x100B0#20) = .grid ∧ regionOf (wordBase 0x100B4#20) = .grid ∧
    regionOf (wordBase 0x1FFFC#20) = .grid := by decide

theorem witness_StatusCtrlAndDimRead :
    State.reset.busy = false ∧ wordBase (BitVec.ofNat 20 (0x06200 + 32 * 31 + 4 * 7)) = 0x065FC ∧
    wordBase (BitVec.ofNat 20 (0x10000 + 256 * 255 + 4 * 63)) = 0x1FFFC := by decide

theorem witness_RegistersKeepTheirFields : State.reset.busy = false := by decide

theorem witness_CmdStatusAndCtrlWrites :
    wordBase 0x07#20 = 0x04 ∧ State.reset.busy = false ∧ busyState.busy = true ∧ wordBase 0x08#20 = 0x08 ∧
    wordBase 0x0F#20 = 0x0C ∧ (0x7FFFFFFF#32).getLsbD 31 = false := by decide

theorem witness_SoftResetKeepsStorage : wordBase 0x0C#20 = 0x0C ∧ (0x80000001#32).getLsbD 31 = true := by decide

/-- A state with a command pending meets the machine invariant, and a step is taken from it. -/
theorem witness_StepKeepsTheMachineInvariant : busyState.Inv ∧ step busyState = .next (after .fill busyState) :=
  ⟨⟨by unfold State.statusConsistent; decide, rfl, unwritten_wf, unwritten_wf, by decide⟩, rfl⟩

theorem witness_StepKeepsTheStageOrder :
    Stage.none.ordered ∧ Stage.none.afterPack.afterEccgen.afterReserve.afterFill.afterMasksel.afterFormat.ordered ∧
    ¬ State.reset.nextWritesStage := by
  refine ⟨by unfold Stage.ordered; decide, by unfold Stage.ordered; decide, ?_⟩
  rintro ⟨a, w, rest, h, -⟩
  simp [State.reset] at h

theorem witness_StepKeepsTheReservation :
    m1Reserved.reservationValid ∧ m1Reserved.stage.r = true ∧ ¬ m1Reserved.nextWritesStage ∧
    ¬ m1Reserved.nextWritesGrid := by
  have h : m1Reserved.agenda = [] := rfl
  have hc : m1Reserved.config = m1Loaded.config := by decide
  have hr : m1Reserved.res = reservedRes m1Loaded.config := by simp only [m1Reserved]
  refine ⟨fun _ => by rw [hr, hc], by simp only [m1Reserved, Stage.none], ?_, ?_⟩ <;> (rintro ⟨a, w, rest, hw, -⟩; simp [h] at hw)

end Sys2Proof.Tests
end

section
/-!
PROOFS. What the machine does, said once: `exec` is one check and one write for every command, a step is one of
three kinds of turn.
-/

namespace Sys2Proof.Machine

/-! ## ENCODE is PACK's check and the six stages' writes -/

/-- The writes of the six stages of ENCODE, in order (44_format_control.md R287). -/
def encodeWrites (s : State) : State :=
  formatWrites (maskselWrites (fillWrites (reserveWrites (eccgenWrites (packWrites s)))))

theorem check_of_packCheck {s : State} (h : packCheck s = none) : s.config.check = none := by
  cases hc : s.config.check with
  | none => rfl
  | some e => simp [packCheck, hc] at h

/-- After an accepted PACK every later stage finds its checks met (44_format_control.md R287). -/
theorem runStages_encodeStages (s : State) :
    runStages encodeStages s = match packCheck s with
      | some e => .error (e, 0x10#8)
      | none => .ok (encodeWrites s) := by
  cases hp : packCheck s with
  | some e => simp [encodeStages, runStages, packRun, guarded, hp]
  | none =>
    have hc := check_of_packCheck hp
    have hecc : eccgenCheck (packWrites s) = none := by
      simp [eccgenCheck, packWrites, hc, Stage.afterPack]
    have hres : reserveCheck (eccgenWrites (packWrites s)) = none := by
      simp [reserveCheck, eccgenWrites, packWrites, hc]
    have hfill : fillCheck (reserveWrites (eccgenWrites (packWrites s))) = none := by
      simp [fillCheck, reserveWrites, eccgenWrites, packWrites, hc, Stage.afterReserve, Stage.afterEccgen]
    have hsel : maskselCheck (fillWrites (reserveWrites (eccgenWrites (packWrites s)))) = none := by
      simp [maskselCheck, fillWrites, reserveWrites, eccgenWrites, packWrites, hc, Stage.afterFill,
        Stage.afterReserve]
    have hfmt : formatCheck (maskselWrites (fillWrites (reserveWrites (eccgenWrites (packWrites s))))) = none := by
      simp [formatCheck, maskselWrites, applyMask, fillWrites, reserveWrites, eccgenWrites, packWrites, hc,
        Stage.afterMasksel, Stage.afterFill, Stage.afterReserve]
    simp [encodeStages, runStages, packRun, eccgenRun, reserveRun, fillRun, maskselRun, formatRun, guarded,
      hp, hecc, hres, hfill, hsel, hfmt, encodeWrites]

/-! ## One equation for every command -/

/-- The error a command's checks raise, if any. -/
def commandCheck : Instr → State → Option CmdError
  | .nop, _ => none
  | .pack, s => packCheck s
  | .gfmul, _ => none
  | .rsenc, s => rsencCheck s
  | .eccgen, s => eccgenCheck s
  | .reserve, s => reserveCheck s
  | .fill, s => fillCheck s
  | .maskapply p, s => maskCheck p.toNat s
  | .maskscore p, s => maskCheck p.toNat s
  | .masksel, s => maskselCheck s
  | .format, s => formatCheck s
  | .encode, s => packCheck s

/-- What a command writes when its checks pass, before the completion. -/
def commandWrites : Instr → State → State
  | .nop, s => s
  | .pack, s => packWrites s
  | .gfmul, s => gfmulWrites s
  | .rsenc, s => rsencWrites s
  | .eccgen, s => eccgenWrites s
  | .reserve, s => reserveWrites s
  | .fill, s => fillWrites s
  | .maskapply p, s => applyMask p.toNat s
  | .maskscore p, s => maskscoreWrites p.toNat s
  | .masksel, s => maskselWrites s
  | .format, s => formatWrites s
  | .encode, s => encodeWrites s

/-- The opcode a command's errors name: its own, for ENCODE that of PACK (60_exceptions.md R303;
44_format_control.md R287). -/
def errorOpcode : Instr → BitVec 8
  | .encode => 0x10#8
  | i => i.opcode

/-- Every command ends in one of two ways (60_exceptions.md R303, R304). -/
theorem exec_eq (i : Instr) (s : State) :
    exec i s = match commandCheck i s with
      | some e => .next (completeError e (errorOpcode i) s)
      | none => .next (completeOk (commandWrites i s)) := by
  cases i with
  | nop => exact exec_nop s
  | gfmul => exact exec_gfmul s
  | pack => exact exec_pack s
  | rsenc => exact exec_rsenc s
  | eccgen => exact exec_eccgen s
  | reserve => exact exec_reserve s
  | fill => exact exec_fill s
  | maskapply p => exact exec_maskapply p s
  | maskscore p => exact exec_maskscore p s
  | masksel => exact exec_masksel s
  | format => exact exec_format s
  | encode =>
    rw [exec_encode, runStages_encodeStages]
    cases h : packCheck s <;> simp [commandCheck, commandWrites, errorOpcode, h]

/-- What an answer of `exec` says of the checks. -/
theorem exec_cases {i : Instr} {s t : State} (h : exec i s = .next t) :
    (∃ e, commandCheck i s = some e ∧ t = completeError e (errorOpcode i) s) ∨
    (commandCheck i s = none ∧ t = completeOk (commandWrites i s)) := by
  rw [exec_eq] at h
  cases hc : commandCheck i s with
  | some e => simp only [hc, Host.Outcome.next.injEq] at h; exact .inl ⟨e, rfl, h.symm⟩
  | none => simp only [hc, Host.Outcome.next.injEq] at h; exact .inr ⟨rfl, h.symm⟩

/-! ## The fields no command writes -/

/-- The fields that no command's writes touch: csr.STATUS (which the completion sets), the operand registers and
the model's own fields. -/
structure SameOperands (s t : State) : Prop where
  cmd : t.cmd = s.cmd
  status : t.status = s.status
  irqEn : t.irqEn = s.irqEn
  config : t.config = s.config
  plen : t.plen = s.plen
  arg0 : t.arg0 = s.arg0
  arg1 : t.arg1 = s.arg1
  arg2 : t.arg2 = s.arg2
  arg3 : t.arg3 = s.arg3
  epoch : t.epoch = s.epoch
  agenda : t.agenda = s.agenda
  readData : t.readData = s.readData

theorem SameOperands.trans {s t u : State} (h : SameOperands s t) (h' : SameOperands t u) : SameOperands s u where
  cmd := h'.cmd.trans h.cmd
  status := h'.status.trans h.status
  irqEn := h'.irqEn.trans h.irqEn
  config := h'.config.trans h.config
  plen := h'.plen.trans h.plen
  arg0 := h'.arg0.trans h.arg0
  arg1 := h'.arg1.trans h.arg1
  arg2 := h'.arg2.trans h.arg2
  arg3 := h'.arg3.trans h.arg3
  epoch := h'.epoch.trans h.epoch
  agenda := h'.agenda.trans h.agenda
  readData := h'.readData.trans h.readData

theorem packWrites_sameOperands (s : State) : SameOperands s (packWrites s) := by
  constructor <;> simp [packWrites]

theorem eccgenWrites_sameOperands (s : State) : SameOperands s (eccgenWrites s) := by
  constructor <;> simp [eccgenWrites]

theorem reserveWrites_sameOperands (s : State) : SameOperands s (reserveWrites s) := by
  constructor <;> simp [reserveWrites]

theorem fillWrites_sameOperands (s : State) : SameOperands s (fillWrites s) := by
  constructor <;> simp [fillWrites]

theorem maskselWrites_sameOperands (s : State) : SameOperands s (maskselWrites s) := by
  constructor <;> simp [maskselWrites, applyMask]

theorem formatWrites_sameOperands (s : State) : SameOperands s (formatWrites s) := by
  constructor <;> simp [formatWrites]

theorem encodeWrites_sameOperands (s : State) : SameOperands s (encodeWrites s) :=
  (packWrites_sameOperands _).trans <| (eccgenWrites_sameOperands _).trans <|
    (reserveWrites_sameOperands _).trans <| (fillWrites_sameOperands _).trans <|
    (maskselWrites_sameOperands _).trans <| formatWrites_sameOperands _

theorem commandWrites_sameOperands (i : Instr) (s : State) : SameOperands s (commandWrites i s) := by
  cases i with
  | nop => exact ⟨rfl, rfl, rfl, rfl, rfl, rfl, rfl, rfl, rfl, rfl, rfl, rfl⟩
  | pack => exact packWrites_sameOperands s
  | gfmul => constructor <;> simp [commandWrites, gfmulWrites]
  | rsenc => constructor <;> simp [commandWrites, rsencWrites]
  | eccgen => exact eccgenWrites_sameOperands s
  | reserve => exact reserveWrites_sameOperands s
  | fill => exact fillWrites_sameOperands s
  | maskapply p => constructor <;> simp [commandWrites, applyMask]
  | maskscore p => constructor <;> simp [commandWrites, maskscoreWrites]
  | masksel => exact maskselWrites_sameOperands s
  | format => exact formatWrites_sameOperands s
  | encode => exact encodeWrites_sameOperands s

/-! ## The turns of a step -/

/-- The state with the next event taken off the agenda. -/
def State.takeTurn (s : State) : State := { s with agenda := s.agenda.tail }

@[simp] theorem takeTurn_pending (s : State) : s.takeTurn.pending = s.pending := rfl
@[simp] theorem takeTurn_busy (s : State) : s.takeTurn.busy = s.busy := rfl
@[simp] theorem takeTurn_status (s : State) : s.takeTurn.status = s.status := rfl

theorem takeTurn_of_nil {s : State} (h : s.agenda = []) : s.takeTurn = s := by
  cases s
  simp_all [State.takeTurn]

theorem takeTurn_of_cons {s : State} {e : Turn} {rest : List Turn} (h : s.agenda = e :: rest) :
    s.takeTurn = { s with agenda := rest } := by simp [State.takeTurn, h]

theorem step_nil {s : State} (h : s.agenda = []) : step s = coreStep s := by simp [step, h]

theorem step_core {s : State} {rest : List Turn} (h : s.agenda = .core :: rest) :
    step s = coreStep { s with agenda := rest } := by simp [step, h]

theorem step_host {s : State} {acc : Access} {rest : List Turn} (h : s.agenda = .host acc :: rest) :
    step s = .next (hostAccess acc { s with agenda := rest }) := by simp [step, h]

theorem step_reset {s : State} {rest : List Turn} (h : s.agenda = .reset :: rest) :
    step s = .next (hardwareReset { s with agenda := rest }) := by simp [step, h]

/-- Everything a step can do: the core's step, one host access, or a hardware reset (10_state.md R47; log 1). -/
theorem step_cases {s t : State} (h : step s = .next t) :
    ((s.agenda = [] ∨ s.agenda.head? = some .core) ∧ coreStep s.takeTurn = .next t) ∨
    (∃ acc rest, s.agenda = .host acc :: rest ∧ t = hostAccess acc s.takeTurn) ∨
    (s.agenda.head? = some .reset ∧ t = hardwareReset s.takeTurn) := by
  match ha : s.agenda with
  | [] =>
    rw [step_nil ha] at h
    exact .inl ⟨.inl rfl, by rw [takeTurn_of_nil ha, h]⟩
  | .core :: rest =>
    rw [step_core ha] at h
    exact .inl ⟨.inr rfl, by rw [takeTurn_of_cons ha, h]⟩
  | .host acc :: rest =>
    rw [step_host ha, Host.Outcome.next.injEq] at h
    exact .inr (.inl ⟨acc, rest, rfl, by rw [takeTurn_of_cons ha, h]⟩)
  | .reset :: rest =>
    rw [step_reset ha, Host.Outcome.next.injEq] at h
    exact .inr (.inr ⟨rfl, by rw [takeTurn_of_cons ha, h]⟩)

/-- Everything the core's step can do: nothing while idle, an error completion, or a command's writes and its
completion (10_state.md R47; 60_exceptions.md R303, R304, R317). -/
theorem coreStep_cases {s t : State} (h : coreStep s = .next t) :
    (s.pending = none ∧ t = s) ∨
    (∃ e op, t = completeError e op s) ∨
    (∃ i, commandCheck i s = none ∧ t = completeOk (commandWrites i s)) := by
  cases hp : s.pending with
  | none => rw [coreStep_idle hp, Host.Outcome.next.injEq] at h; exact .inl ⟨rfl, h.symm⟩
  | some w =>
    cases hd : decode w with
    | error e =>
      rw [coreStep_illegal hp hd, Host.Outcome.next.injEq] at h
      exact .inr (.inl ⟨_, _, h.symm⟩)
    | ok i =>
      rw [coreStep_command hp hd] at h
      obtain ⟨e, -, rfl⟩ | ⟨hc, rfl⟩ := exec_cases h
      · exact .inr (.inl ⟨e, _, rfl⟩)
      · exact .inr (.inr ⟨i, hc, rfl⟩)

/-! ## Registers on the bus -/

/-- A write of csr.STATUS, field by field: bit 1 clears DONE, ERR, ERRCODE and ERROP, bit 3 clears ACCERR
(10_state.md R26, R28). -/
theorem statusHostWrite_eq (st : Status) (w : Word) : st.hostWrite w =
    { done := st.done && !w.getLsbD 1
      err := st.err && !w.getLsbD 1
      accerr := st.accerr && !w.getLsbD 3
      errcode := if w.getLsbD 1 then 0#4 else st.errcode
      errop := if w.getLsbD 1 then 0#8 else st.errop } := by
  simp only [Status.hostWrite]
  cases w.getLsbD 1 <;> cases w.getLsbD 3 <;> simp [Status.cleared]

theorem regionOf_csrOffset (k : Csr) : regionOf k.offset = .csr := by
  cases k with
  | mscore m => revert m; decide
  | _ => rfl

theorem csrAt_csrOffset (k : Csr) : csrAt k.offset = some k := by
  cases k with
  | mscore m => revert m; decide
  | _ => rfl

/-- A host write to a register's address is `csrWrite` of the register. -/
theorem hostWrite_csr {a : HostAddr} {k : Csr} (h : wordBase a = k.offset) (w : Word) (s : State) :
    hostWrite a w s = csrWrite k w s := by
  simp only [hostWrite, h, regionOf_csrOffset, csrAt_csrOffset]

/-- A host read of a register's address is `csrRead` of the register. -/
theorem readWord_csr {a : HostAddr} {k : Csr} (h : wordBase a = k.offset) (s : State) :
    s.readWord a = csrRead k s := by
  simp only [State.readWord, h, regionOf_csrOffset, csrAt_csrOffset]

end Sys2Proof.Machine
end

section
/-!
PROOFS. The machine invariant is kept by every step: the sizes of what the commands store, the storage's canonical
form command by command, the status fields, and the host's accesses.
-/

namespace Sys2Proof.Machine

/-! ## How much ECCGEN and PACK store -/

theorem sum_range_lt_ite (n N : Nat) (h : n ≤ N) :
    ((List.range N).map fun j => if j < n then 1 else 0).sum = n := by
  induction N, h using Nat.le_induction with
  | base =>
    rw [List.map_congr_left (g := fun _ => 1) fun j hj => if_pos (List.mem_range.mp hj)]
    simp
  | succ N hN ih => simp [List.range_succ, ih, Nat.not_lt.mpr hN]

/-- Taking byte j of every list that has one, for j below a bound on the lengths, takes every byte once. -/
theorem length_interleave_below (lists : List (List Byte)) (N : Nat) (h : ∀ l ∈ lists, l.length ≤ N) :
    ((List.range N).flatMap fun j => lists.filterMap fun l => l[j]?).length = (lists.map List.length).sum := by
  rw [List.length_flatMap]
  induction lists with
  | nil => simp
  | cons l lists ih =>
    have hcol : ∀ j, ((l :: lists).filterMap fun l => l[j]?).length =
        (if j < l.length then 1 else 0) + (lists.filterMap fun l => l[j]?).length := by
      intro j
      by_cases hj : j < l.length
      · simp [hj, Nat.add_comm]
      · simp [hj]
    simp only [hcol, List.sum_map_add, List.map_cons, List.sum_cons]
    rw [sum_range_lt_ite _ _ (h l (by simp)), ih fun l hl => h l (by simp [hl])]

theorem le_foldl_max (ns : List Nat) (a : Nat) : a ≤ ns.foldl max a ∧ ∀ n ∈ ns, n ≤ ns.foldl max a := by
  induction ns generalizing a with
  | nil => simp
  | cons n ns ih =>
    obtain ⟨h1, h2⟩ := ih (max a n)
    simp only [List.foldl_cons, List.mem_cons, forall_eq_or_imp]
    exact ⟨by omega, by omega, h2⟩

/-- Interleaving keeps the number of bytes (40_gf_rs.md R139). -/
theorem interleave_length (lists : List (List Byte)) :
    (interleave lists).length = (lists.map List.length).sum :=
  length_interleave_below _ _ fun _ hl => (le_foldl_max _ 0).2 _ (List.mem_map_of_mem hl)

/-- Where no block's data exceed its total, the blocks have at most their totals of codewords (40_gf_rs.md R138). -/
theorem finalSequence_splitBlocks_length_le (shapes : List (Nat × Nat)) (l : List Byte)
    (h : ∀ p ∈ shapes, p.2 ≤ p.1) :
    (finalSequence (splitBlocks shapes l)).length ≤ (shapes.map Prod.fst).sum := by
  simp only [finalSequence, List.length_append, interleave_length, List.map_map]
  induction shapes generalizing l with
  | nil => simp [splitBlocks]
  | cons p shapes ih =>
    obtain ⟨total, data⟩ := p
    have h0 : data ≤ total := h (total, data) (by simp)
    have := ih (l.drop data) fun q hq => h q (by simp [hq])
    simp only [splitBlocks, List.map_cons, List.sum_cons, Function.comp_apply, List.length_take,
      rsRemainder_length]
    omega

/-- The blocks of the groups have as many codewords as the groups say. -/
theorem blockShapes_sum (gs : List Group) :
    ((blockShapes gs).map Prod.fst).sum = (gs.map fun g => g.count * g.total).sum := by
  induction gs with
  | nil => rfl
  | cons g gs ih =>
    simp only [blockShapes, List.flatMap_cons, List.map_append, List.sum_append, List.map_cons,
      List.sum_cons] at *
    simp [ih]

/-- The groups of a legal CONFIG are a row of the block table (20_memory.md R82-R84). -/
theorem groups_of_check {c : SymbolConfig} (h : c.check = none) :
    c.nTotal ≤ 3706 ∧ ∀ g ∈ c.groups, g.data < g.total := by
  obtain ⟨hv, he⟩ := (check_eq_none_iff c).mp h
  have hver : 1 ≤ c.ver ∧ c.ver ≤ 40 ∧ (c.micro = true → c.ver ≤ 4) := by
    cases hm : c.micro <;> simp [SymbolConfig.versionOK, hm] at hv ⊢ <;> omega
  obtain ⟨h1, h40, h4⟩ := hver
  cases hl : c.level with
  | none => simp [SymbolConfig.eccOK, hl] at he
  | some level =>
    have hmem : level ∈ legalEcc c.micro c.ver := by simpa [SymbolConfig.eccOK, hl] using he
    obtain ⟨-, hsum, hgs⟩ := groups_bounds c.micro c.ver (by omega) level hmem h4 h1
    simp only [SymbolConfig.nTotal, SymbolConfig.groups, hl]
    exact ⟨hsum, fun g hg => (hgs g hg).1⟩

theorem nData_le {c : SymbolConfig} (h : c.check = none) : c.nData ≤ 3706 := by
  obtain ⟨hsum, hgs⟩ := groups_of_check h
  refine le_trans (List.sum_le_sum fun g hg => ?_) hsum
  exact Nat.mul_le_mul_left _ (hgs g hg).le

theorem eccSequence_length_le {s : State} (h : s.config.check = none) : (eccSequence s).length ≤ 3706 := by
  obtain ⟨hsum, hgs⟩ := groups_of_check h
  have hshape : ∀ p ∈ blockShapes s.config.groups, p.2 ≤ p.1 := by
    simp only [blockShapes, List.mem_flatMap, List.mem_replicate]
    rintro p ⟨g, hg, -, rfl⟩
    exact (hgs g hg).le
  calc (eccSequence s).length
      ≤ ((blockShapes s.config.groups).map Prod.fst).sum := finalSequence_splitBlocks_length_le _ _ hshape
    _ = s.config.nTotal := blockShapes_sum _
    _ ≤ 3706 := hsum

/-! ## The storage, command by command -/

section
variable {s : State}

theorem storageCanonical_of_drawMod (h : s.storageCanonical) (ds : List Draw) : (s.drawMod ds).storageCanonical := by
  obtain ⟨hmem, hmod, hres, hmode⟩ := h
  exact ⟨hmem, draw_wf _ _ hmod, hres, hmode⟩

theorem storageCanonical_of_store (h : s.storageCanonical) {base : Nat} {bs : List Byte} (hlo : bufferBase ≤ base)
    (hhi : base + bs.length ≤ bufferEnd) : (s.store base bs).storageCanonical := by
  obtain ⟨hmem, hmod, hres, hmode⟩ := h
  exact ⟨store_wf _ _ _ hmem hlo hhi, hmod, hres, hmode⟩

/-- The storage does not look at any other field. -/
theorem storageCanonical_congr {t : State} (h : s.storageCanonical) (hmem : t.mem = s.mem) (hmod : t.mod = s.mod)
    (hres : t.res = s.res) (hmode : t.modeused = s.modeused) : t.storageCanonical := by
  unfold State.storageCanonical at *
  rwa [hmem, hmod, hres, hmode]

theorem packWrites_storageCanonical (h : s.storageCanonical) (hc : s.config.check = none) :
    (packWrites s).storageCanonical := by
  have hn := nData_le hc
  obtain ⟨hmem, hmod, hres, -⟩ := storageCanonical_of_store (base := dbufBase)
    (bs := bytesOfBits s.config.nData (packStream s)) h (by decide)
    (by rw [bytesOfBits_length, dbufBase, bufferEnd]; omega)
  exact ⟨hmem, hmod, hres, by simp only [packWrites]; cases packMode s <;> decide⟩

theorem eccgenWrites_storageCanonical (h : s.storageCanonical) (hc : s.config.check = none) :
    (eccgenWrites s).storageCanonical := by
  have hn := eccSequence_length_le hc
  exact storageCanonical_of_store (base := cwbufBase) (bs := eccSequence s) h (by decide)
    (by rw [cwbufBase, bufferEnd]; omega)

theorem reserveWrites_storageCanonical (h : s.storageCanonical) : (reserveWrites s).storageCanonical := by
  obtain ⟨hmem, -, -, hmode⟩ := h
  exact ⟨hmem, draw_wf _ _ blank_wf, draw_wf _ _ blank_wf, hmode⟩

theorem fillWrites_storageCanonical (h : s.storageCanonical) : (fillWrites s).storageCanonical :=
  storageCanonical_of_drawMod h _

theorem maskselWrites_storageCanonical (h : s.storageCanonical) : (maskselWrites s).storageCanonical :=
  storageCanonical_of_drawMod h (maskDraws (bestCandidate s).1 s)

theorem formatWrites_storageCanonical (h : s.storageCanonical) : (formatWrites s).storageCanonical :=
  storageCanonical_of_drawMod h _

theorem rsencWrites_storageCanonical (h : s.storageCanonical) (hc : rsencCheck s = none) :
    (rsencWrites s).storageCanonical := by
  have hd : s.arg3.toNat + s.arg2.toNat ≤ 4096 := by
    by_contra hd
    simp only [rsencCheck] at hc
    split_ifs at hc
    omega
  exact storageCanonical_of_store h (by rw [cwbufBase, bufferBase]; omega)
    (by rw [rsRemainder_length, cwbufBase, bufferEnd]; omega)

theorem encodeWrites_storageCanonical (h : s.storageCanonical) (hc : s.config.check = none) :
    (encodeWrites s).storageCanonical :=
  have hecc : (packWrites s).config.check = none := by rw [(packWrites_sameOperands s).config, hc]
  formatWrites_storageCanonical <| maskselWrites_storageCanonical <| fillWrites_storageCanonical <|
    reserveWrites_storageCanonical <| eccgenWrites_storageCanonical (packWrites_storageCanonical h hc) hecc

theorem check_of_eccgenCheck (h : eccgenCheck s = none) : s.config.check = none := by
  cases hc : s.config.check with
  | none => rfl
  | some e => simp [eccgenCheck, hc] at h

/-- A command whose checks pass keeps the canonical form. -/
theorem commandWrites_storageCanonical {i : Instr} (h : s.storageCanonical) (hc : commandCheck i s = none) :
    (commandWrites i s).storageCanonical := by
  cases i with
  | nop => exact h
  | pack => exact packWrites_storageCanonical h (check_of_packCheck hc)
  | gfmul => exact storageCanonical_congr h rfl rfl rfl rfl
  | rsenc => exact rsencWrites_storageCanonical h hc
  | eccgen => exact eccgenWrites_storageCanonical h (check_of_eccgenCheck hc)
  | reserve => exact reserveWrites_storageCanonical h
  | fill => exact fillWrites_storageCanonical h
  | maskapply p => exact storageCanonical_of_drawMod h _
  | maskscore p => exact storageCanonical_congr h rfl rfl rfl rfl
  | masksel => exact maskselWrites_storageCanonical h
  | format => exact formatWrites_storageCanonical h
  | encode => exact encodeWrites_storageCanonical h (check_of_packCheck hc)

/-! ## The invariant, step by step -/

/-- The status does not look at any field but csr.STATUS and the latch, and not at ACCERR. -/
theorem statusConsistent_congr {t : State} (h : s.statusConsistent) (hp : t.pending = s.pending)
    (hst : ∃ b, t.status = { s.status with accerr := b }) : t.statusConsistent := by
  obtain ⟨b, hst⟩ := hst
  unfold State.statusConsistent at *
  rwa [hp, hst]

/-- With nothing recorded the fields fit together, whatever is pending. -/
theorem statusConsistent_of_clear {t : State} (hd : t.status.done = false) (he : t.status.err = false)
    (hc : t.status.errcode = 0#4) (ho : t.status.errop = 0#8) : t.statusConsistent := by
  simp [State.statusConsistent, hd, he, hc, ho]

theorem completeOk_inv (h : s.storageCanonical) : (completeOk s).Inv :=
  ⟨by simp [State.statusConsistent], storageCanonical_congr h rfl rfl rfl rfl⟩

theorem completeError_inv (h : s.storageCanonical) (e : CmdError) (op : BitVec 8) : (completeError e op s).Inv := by
  obtain ⟨hpos, hle⟩ := code_range e
  have hcode : e.code ≠ 0#4 := by rintro h0; simp [h0] at hpos
  exact ⟨by simp [State.statusConsistent, hcode, hle], storageCanonical_congr h rfl rfl rfl rfl⟩

theorem coreStep_inv {t : State} (h : s.Inv) (hstep : coreStep s = .next t) : t.Inv := by
  obtain ⟨-, rfl⟩ | ⟨e, op, rfl⟩ | ⟨i, hc, rfl⟩ := coreStep_cases hstep
  · exact h
  · exact completeError_inv h.2 e op
  · exact completeOk_inv (commandWrites_storageCanonical h.2 hc)

theorem accessError_inv (h : s.Inv) : s.accessError.Inv :=
  ⟨statusConsistent_congr h.1 rfl ⟨_, rfl⟩, h.2⟩

/-- A write of csr.STATUS: acknowledged or not, the fields fit together. -/
theorem statusWrite_inv (h : s.Inv) (w : Word) : { s with status := s.status.hostWrite w }.Inv := by
  obtain ⟨hs, hst⟩ := h
  refine ⟨?_, hst⟩
  rw [statusHostWrite_eq]
  cases w.getLsbD 1 with
  | true => exact statusConsistent_of_clear (by simp) (by simp) rfl rfl
  | false => exact statusConsistent_congr hs rfl ⟨s.status.accerr && !w.getLsbD 3, by simp⟩

theorem softReset_inv (h : s.Inv) : (softReset s).Inv := by
  obtain ⟨-, hmem, hmod, hres, -⟩ := h
  exact ⟨statusConsistent_of_clear rfl rfl rfl rfl, hmem, hmod, hres, by rw [softReset_modeused]; decide⟩

theorem hardwareReset_inv (s : State) : (hardwareReset s).Inv :=
  ⟨statusConsistent_of_clear rfl rfl rfl rfl, reset_memory_wf, unwritten_wf, unwritten_wf,
    by rw [hardwareReset_modeused]; decide⟩

/-- A write of a read-write register touches neither the status, the latch nor the storage. -/
theorem csrStore_inv (h : s.Inv) {k : Csr} (w : Word)
    (hk : k ∈ [Csr.config, .plen, .stage, .maskid, .arg0, .arg1, .arg2, .arg3]) : (csrStore k w s).Inv := by
  simp only [List.mem_cons, List.not_mem_nil, or_false] at hk
  rcases hk with rfl | rfl | rfl | rfl | rfl | rfl | rfl | rfl <;> exact h

theorem wordBase_mod (a : HostAddr) : wordBase a % 4 = 0 := by
  simp only [wordBase]
  omega

theorem regionOf_buffer {a : Nat} (h : regionOf a = .buffer) : bufferBase ≤ a ∧ a < bufferEnd := by
  simp only [regionOf] at h
  split_ifs at h
  simp only [bufferBase, bufferEnd]
  omega

/-- A buffer word lies wholly inside the buffers. -/
theorem bufferWrite_inv (h : s.Inv) {a : HostAddr} (hr : regionOf (wordBase a) = .buffer) (w : Word) :
    (s.store (wordBase a) (wordBytes w)).Inv := by
  have hmod := wordBase_mod a
  obtain ⟨hlo, hhi⟩ := regionOf_buffer hr
  refine ⟨h.1, storageCanonical_of_store h.2 hlo ?_⟩
  simp only [wordBytes_length, bufferEnd] at *
  omega

theorem gridStore_inv (h : s.Inv) (b : Nat) (w : Word) : (gridStore b w s).Inv := by
  obtain ⟨hs, hmem, hmod, hres, hmode⟩ := h
  exact ⟨statusConsistent_congr hs (by simp) ⟨s.status.accerr, by simp⟩, by simpa using hmem,
    by simpa using draw_wf _ _ hmod, by simpa using draw_wf _ _ hres, by simpa using hmode⟩

theorem hostRead_inv (h : s.Inv) (a : HostAddr) : (hostRead a s).Inv := by
  obtain he | ⟨-, -, he⟩ := hostRead_cases a s <;> rw [he]
  · exact h
  · exact accessError_inv h

theorem hostWrite_inv (h : s.Inv) (a : HostAddr) (w : Word) : (hostWrite a w s).Inv := by
  obtain he | ⟨-, -, he⟩ | ⟨-, he⟩ | ⟨-, -, he⟩ | ⟨-, -, he⟩ | ⟨k, hk, -, -, he⟩ | ⟨hr, -, he⟩ | ⟨-, -, he⟩ :=
    hostWrite_cases a w s <;> rw [he]
  · exact accessError_inv h
  · exact ⟨statusConsistent_of_clear rfl rfl rfl rfl, h.2⟩
  · exact statusWrite_inv h w
  · exact softReset_inv h
  · exact h
  · exact csrStore_inv h w hk
  · exact bufferWrite_inv h hr w
  · exact gridStore_inv h _ w

theorem hostAccess_inv (h : s.Inv) (acc : Access) : (hostAccess acc s).Inv := by
  cases acc with
  | read a => exact hostRead_inv h a
  | write a w => exact hostWrite_inv h a w

end

/-- Settles O56: the core's step by what commands write and how they complete, a host access by the cases of a
write and of a read, a hardware reset outright. -/
theorem stepKeepsTheMachineInvariant : Obligations.StepKeepsTheMachineInvariant := by
  intro s t hs hstep
  have hturn : s.takeTurn.Inv := hs
  obtain ⟨-, hcore⟩ | ⟨acc, rest, -, rfl⟩ | ⟨-, rfl⟩ := step_cases hstep
  · exact coreStep_inv hturn hcore
  · exact hostAccess_inv hturn acc
  · exact hardwareReset_inv _

end Sys2Proof.Machine
end

section
/-!
PROOFS. How commands complete, when BUSY changes, which accesses are errors, and the writes of CMD, STATUS and CTRL.
-/

namespace Sys2Proof.Machine

/-! ## Completion -/

/-- Settles O7: a command ends by `exec_eq` in an error completion, which changes nothing but csr.STATUS and the
latch, or in the completion of writes that leave the operand registers alone. -/
theorem everyCommandCompletes : Obligations.EveryCommandCompletes := by
  intro i s
  rw [exec_eq]
  cases commandCheck i s with
  | some e =>
    obtain ⟨hpos, hle⟩ := code_range e
    refine ⟨completeError e (errorOpcode i) s, rfl, rfl, rfl, rfl, .inr ⟨rfl, hpos, hle, ?_, rfl⟩, ?_⟩
    · cases i <;> rfl
    · simp
  | none =>
    obtain ⟨hcmd, hst, hirq, hcfg, hplen, h0, h1, h2, h3, hep, hag, hrd⟩ := commandWrites_sameOperands i s
    exact ⟨completeOk (commandWrites i s), rfl, rfl, rfl, by simp [hst], .inl ⟨rfl, rfl, rfl⟩,
      hcmd, hirq, hcfg, hplen, h0, h1, h2, h3, hep, hag, hrd⟩

/-- ACCERR is kept by every command (10_state.md R28). -/
theorem exec_accerr {i : Instr} {s t : State} (h : exec i s = .next t) : t.status.accerr = s.status.accerr := by
  obtain ⟨u, hu, -, -, hacc, -⟩ := everyCommandCompletes i s
  obtain rfl : u = t := by rw [hu] at h; exact Host.Outcome.next.inj h
  exact hacc

/-! ## BUSY -/

theorem busy_false_iff (s : State) : s.busy = false ↔ s.pending = none := by simp [State.busy]

/-- The core's step never fills the latch. -/
theorem coreStep_busy {s t : State} (h : coreStep s = .next t) : t.busy = false := by
  obtain ⟨hp, rfl⟩ | ⟨e, op, rfl⟩ | ⟨i, -, rfl⟩ := coreStep_cases h
  · exact (busy_false_iff t).mpr hp
  · rfl
  · rfl

theorem csrStore_pending (k : Csr) (w : Word) (s : State) : (csrStore k w s).pending = s.pending := by
  cases k <;> rfl

theorem hostRead_pending (a : HostAddr) (s : State) : (hostRead a s).pending = s.pending := by
  obtain he | ⟨-, -, he⟩ := hostRead_cases a s <;> rw [he]
  rfl

/-- A host write changes the latch only as an accepted command or as a soft reset (10_state.md R23, R25). -/
theorem hostWrite_pending (a : HostAddr) (w : Word) (s : State) :
    (hostWrite a w s).pending = s.pending ∨
    (wordBase a = 0x04 ∧ s.busy = false ∧ (hostWrite a w s).pending = some w) ∨
    (wordBase a = 0x0C ∧ w.getLsbD 31 = true ∧ (hostWrite a w s).pending = none) := by
  obtain he | ⟨ha, hb, he⟩ | ⟨-, he⟩ | ⟨ha, hw, he⟩ | ⟨-, -, he⟩ | ⟨k, -, -, -, he⟩ | ⟨-, -, he⟩ | ⟨-, -, he⟩ :=
    hostWrite_cases a w s <;> rw [he]
  · exact .inl rfl
  · exact .inr (.inl ⟨ha, hb, rfl⟩)
  · exact .inl rfl
  · exact .inr (.inr ⟨ha, hw, rfl⟩)
  · exact .inl rfl
  · exact .inl (csrStore_pending k w s)
  · exact .inl rfl
  · exact .inl (gridStore_pending _ w s)

/-- Settles O9: by the kinds of turn; of the host's accesses only a CMD write and a soft reset touch the latch. -/
theorem busyChangesOnlyByIssueCompletionReset : Obligations.BusyChangesOnlyByIssueCompletionReset := by
  intro s t hstep
  obtain ⟨hturn, hcore⟩ | ⟨acc, rest, hag, rfl⟩ | ⟨hturn, rfl⟩ := step_cases hstep
  · have ht := coreStep_busy hcore
    exact ⟨fun _ h => by simp [ht] at h, fun _ _ => .inl hturn⟩
  · cases acc with
    | read a =>
      have hp : (hostAccess (.read a) s.takeTurn).busy = s.busy := by
        simp [hostAccess, State.busy, hostRead_pending]
      exact ⟨fun h h' => by simp [hp, h] at h', fun h h' => by simp [hp, h] at h'⟩
    | write a w =>
      obtain hp | ⟨ha, hb, hp⟩ | ⟨ha, hw, hp⟩ := hostWrite_pending a w s.takeTurn
      · have hp' : (hostAccess (.write a w) s.takeTurn).busy = s.busy := by simp [hostAccess, State.busy, hp]
        exact ⟨fun h h' => by simp [hp', h] at h', fun h h' => by simp [hp', h] at h'⟩
      · rw [takeTurn_busy] at hb
        exact ⟨fun _ _ => ⟨a, w, rest, hag, ha, hp⟩, fun h _ => by simp [hb] at h⟩
      · have hp' : (hostAccess (.write a w) s.takeTurn).busy = false := (busy_false_iff _).mpr hp
        exact ⟨fun _ h => by simp [hp'] at h, fun _ _ => .inr (.inr ⟨a, w, rest, hag, ha, hw⟩)⟩
  · exact ⟨fun _ h => (nomatch h), fun _ _ => .inr (.inl hturn)⟩

/-! ## Access errors -/

/-- The word addresses of the registers a host write can act on. -/
def writableOffsets : List Nat := [0x04, 0x08, 0x0C, 0x10, 0x14, 0x18, 0x24, 0x40, 0x44, 0x48, 0x4C]

/-- A host write that is no access error goes to a writable register, or, while BUSY = 0, to the buffers or the
GRID; while BUSY = 1 the register is STATUS or CTRL (10_state.md R28). -/
theorem hostWrite_error_or_target (a : HostAddr) (w : Word) (s : State) :
    hostWrite a w s = s.accessError ∨
    (regionOf (wordBase a) = .csr ∧ wordBase a ∈ writableOffsets ∧ (s.busy = true → wordBase a ∈ [0x08, 0x0C])) ∨
    (regionOf (wordBase a) ∈ [Region.buffer, .grid] ∧ s.busy = false) := by
  obtain he | ⟨ha, hb, -⟩ | ⟨ha, -⟩ | ⟨ha, -, -⟩ | ⟨ha, -, -⟩ | ⟨k, hk, ha, hb, -⟩ | ⟨hr, hb, -⟩ | ⟨hr, hb, -⟩ :=
    hostWrite_cases a w s
  · exact .inl he
  · rw [ha, hb]
    exact .inr (.inl (by decide))
  · rw [ha]
    exact .inr (.inl ⟨rfl, by decide, fun _ => by decide⟩)
  · rw [ha]
    exact .inr (.inl ⟨rfl, by decide, fun _ => by decide⟩)
  · rw [ha]
    exact .inr (.inl ⟨rfl, by decide, fun _ => by decide⟩)
  · have hoff : ∀ k ∈ [Csr.config, .plen, .stage, .maskid, .arg0, .arg1, .arg2, .arg3],
        k.offset ∈ writableOffsets := by decide
    exact .inr (.inl ⟨ha ▸ regionOf_csrOffset k, ha ▸ hoff k hk, by simp [hb]⟩)
  · exact .inr (.inr (by simp [hr, hb]))
  · exact .inr (.inr (by simp [hr, hb]))

/-- While BUSY = 1 a read of a locked region is refused (10_state.md R28). -/
theorem hostRead_refused {a : HostAddr} {s : State} (hb : s.busy = true)
    (hr : (regionOf (wordBase a)).lockedWhenBusy = true) : readRefused s (hostRead a s) := by
  have hword : s.readWord a = 0#32 := by
    simp only [State.readWord, hb]
    cases hreg : regionOf (wordBase a) <;> simp [hreg, Region.lockedWhenBusy] at hr ⊢
  simp [readRefused, hostRead, hb, hr, hword, State.accessError]

/-- Only a STATUS write with bit 3 and a soft reset clear ACCERR (10_state.md R28). -/
theorem hostAccess_clears_accerr {acc : Access} {s : State} (h : s.status.accerr = true)
    (h' : (hostAccess acc s).status.accerr = false) : ∃ a w, acc = .write a w ∧
      ((wordBase a = 0x08 ∧ w.getLsbD 3 = true) ∨ (wordBase a = 0x0C ∧ w.getLsbD 31 = true)) := by
  cases acc with
  | read a =>
    obtain he | ⟨-, -, he⟩ := hostRead_cases a s <;> simp [hostAccess, he, h] at h'
  | write a w =>
    refine ⟨a, w, rfl, ?_⟩
    obtain he | ⟨-, -, he⟩ | ⟨ha, he⟩ | ⟨ha, hw, -⟩ | ⟨-, -, he⟩ | ⟨k, -, -, hb, he⟩ | ⟨-, -, he⟩ | ⟨-, -, he⟩ :=
      hostWrite_cases a w s
    · simp [hostAccess, he] at h'
    · simp [hostAccess, he, h] at h'
    · refine .inl ⟨ha, ?_⟩
      simpa [hostAccess, he, statusHostWrite_eq, h] using h'
    · exact .inr ⟨ha, hw⟩
    · simp [hostAccess, he, h] at h'
    · cases k <;> simp [hostAccess, he, csrStore, h] at h'
    · simp [hostAccess, he, h] at h'
    · simp [hostAccess, he, h] at h'

/-- Settles O47: `hostWrite_error_or_target` names every write that is no access error, and none of them lies
where the first four clauses look. -/
theorem accessErrorsDoNothingElse : Obligations.AccessErrorsDoNothingElse := by
  refine ⟨fun s a w hb hr ha => ?_, fun s a w hb hr => ⟨?_, ?_⟩, fun s a w hr => ?_, fun s a w hr ha => ?_,
    fun s acc => hostAccess_clears_accerr, fun i s t => exec_accerr⟩
  · obtain he | ⟨-, -, ha'⟩ | ⟨-, hb'⟩ := hostWrite_error_or_target a w s
    · exact he
    · exact absurd (ha' hb) ha
    · simp [hb] at hb'
  · obtain he | ⟨hr', -, -⟩ | ⟨-, hb'⟩ := hostWrite_error_or_target a w s
    · exact he
    · simp [hr'] at hr
    · simp [hb] at hb'
  · refine hostRead_refused hb ?_
    cases hreg : regionOf (wordBase a) <;> simp [hreg, Region.lockedWhenBusy] at hr ⊢
  · obtain he | ⟨hr', -, -⟩ | ⟨hr', -⟩ := hostWrite_error_or_target a w s
    · exact he
    · simp [hr'] at hr
    · cases hreg : regionOf (wordBase a) <;> simp [hreg] at hr hr'
  · obtain he | ⟨-, ha', -⟩ | ⟨hr', -⟩ := hostWrite_error_or_target a w s
    · exact he
    · exact absurd ha' ha
    · simp [hr] at hr'

/-! ## Turns, and the writes of CMD, STATUS and CTRL -/

/-- Settles O4: each clause is `step` at one shape of the agenda. -/
theorem stepRunsTheDecodedCommand : Obligations.StepRunsTheDecodedCommand := by
  refine ⟨fun s w i hp hd => ⟨fun ha => ?_, fun rest ha => ?_⟩, fun s nbits w i hd => ?_,
    fun s acc rest ha => step_host ha, fun s rest ha => step_reset ha,
    fun s hp => ⟨fun ha => ?_, fun rest ha => ?_⟩⟩
  · exact (step_nil ha).trans (coreStep_command hp hd)
  · exact (step_core ha).trans (coreStep_command hp hd)
  · have hstep : step (s.withFetchWord nbits w) = coreStep (acceptCommand (tableWord nbits w) s) := step_core rfl
    exact hstep.trans (coreStep_command (acceptCommand_pending _ s) hd)
  · exact (step_nil ha).trans (coreStep_idle hp)
  · exact (step_core ha).trans (coreStep_idle hp)

/-- Settles O53: a write to a register's address is `csrWrite`, which gives CMD, STATUS and CTRL their own rules. -/
theorem cmdStatusAndCtrlWrites : Obligations.CmdStatusAndCtrlWrites := by
  refine ⟨fun s a w ha => ?_, fun s => readWord_csr (k := .cmd) rfl s, fun s a w ha => ?_, fun s a w ha hw => ?_⟩
  · have he : hostAccess (.write a w) s = writeCmd w s := hostWrite_csr (k := .cmd) ha w s
    rw [he, writeCmd]
    exact ⟨fun hb => by rw [hb]; rfl, fun hb => by rw [hb]; rfl⟩
  · have he : hostAccess (.write a w) s = { s with status := s.status.hostWrite w } :=
      hostWrite_csr (k := .status) ha w s
    rw [he, statusHostWrite_eq]
  · have he : hostAccess (.write a w) s = writeCtrl w s := hostWrite_csr (k := .ctrl) ha w s
    rw [he, writeCtrl, hw]
    rfl

end Sys2Proof.Machine
end

section
/-!
PROOFS. What the host reads: the register words as numbers, and the bytes of a word of storage.
-/

namespace Sys2Proof.Machine

/-! ## Register words -/

/-- A concatenation as a number. -/
theorem toNat_append_eq {m n : Nat} (x : BitVec m) (y : BitVec n) : (x ++ y).toNat = 2 ^ n * x.toNat + y.toNat := by
  rw [BitVec.toNat_append, ← Nat.shiftLeft_add_eq_or_of_lt y.isLt, Nat.shiftLeft_eq, Nat.mul_comm]

theorem toNat_ofBool_eq (b : Bool) : (BitVec.ofBool b).toNat = if b then 1 else 0 := by cases b <;> rfl

theorem config_toWord_toNat (c : SymbolConfig) : c.toWord.toNat = (if c.micro then 1 else 0) +
    2 ^ 8 * c.version.toNat + 2 ^ 16 * c.ecc.toNat + 2 ^ 24 * c.mode.toNat := by
  simp only [SymbolConfig.toWord, toNat_append_eq, toNat_ofBool_eq, BitVec.toNat_ofNat]
  omega

theorem stage_toWord_toNat (st : Stage) : st.toWord.toNat = (if st.p then 1 else 0) + (if st.e then 2 else 0) +
    (if st.r then 4 else 0) + (if st.f then 8 else 0) + (if st.m then 16 else 0) + (if st.t then 32 else 0) := by
  simp only [Stage.toWord, toNat_append_eq, toNat_ofBool_eq, BitVec.toNat_ofNat]
  split_ifs <;> rfl

theorem maskid_toWord_toNat (k : MaskId) : k.toWord.toNat = k.pattern.toNat + 2 ^ 8 * k.alt.toNat := by
  simp only [MaskId.toWord, toNat_append_eq, BitVec.toNat_ofNat]
  omega

theorem dimRegister_eq (c : SymbolConfig) : c.dimRegister =
    if c.micro then (if 1 ≤ c.version.toNat ∧ c.version.toNat ≤ 4 then 9 + 2 * c.version.toNat else 0)
    else if 1 ≤ c.version.toNat ∧ c.version.toNat ≤ 40 then 17 + 4 * c.version.toNat else 0 := by
  cases hm : c.micro
  · by_cases hv : 1 ≤ c.version.toNat ∧ c.version.toNat ≤ 40 <;>
      simp [SymbolConfig.dimRegister, SymbolConfig.versionOK, SymbolConfig.dim, SymbolConfig.ver, hm, hv]
  · by_cases hv : 1 ≤ c.version.toNat ∧ c.version.toNat ≤ 4 <;>
      simp [SymbolConfig.dimRegister, SymbolConfig.versionOK, SymbolConfig.dim, SymbolConfig.ver, hm, hv]

theorem dimRegister_lt (c : SymbolConfig) : c.dimRegister < 2 ^ 32 := by
  have := c.version.isLt
  rw [dimRegister_eq]
  split_ifs <;> omega

/-- The flags of the STATUS word (10_state.md R24). -/
theorem statusWord_flags (s : State) :
    s.statusWord.getLsbD 0 = s.busy ∧ s.statusWord.getLsbD 1 = s.status.done ∧
    s.statusWord.getLsbD 2 = s.status.err ∧ s.statusWord.getLsbD 3 = s.status.accerr := by
  simp only [State.statusWord, BitVec.getLsbD_append]
  simp

/-- The error fields and the reserved bits of the STATUS word (10_state.md R24). -/
theorem statusWord_slices (s : State) :
    s.statusWord.extractLsb' 4 4 = 0#4 ∧ s.statusWord.extractLsb' 8 4 = s.status.errcode ∧
    s.statusWord.extractLsb' 12 4 = 0#4 ∧ s.statusWord.extractLsb' 16 8 = s.status.errop ∧
    s.statusWord.extractLsb' 24 8 = 0#8 := by
  simp (disch := omega) only [State.statusWord, BitVec.extractLsb'_append_eq_of_le,
    BitVec.extractLsb'_append_eq_of_add_le]
  simp

theorem ctrlWord_toNat (s : State) : s.ctrlWord.toNat = if s.irqEn then 1 else 0 := by
  simp only [State.ctrlWord, toNat_append_eq, toNat_ofBool_eq, BitVec.toNat_ofNat]
  omega

/-! ## Bytes of storage -/

/-- A word address of the window is its own word base. -/
theorem wordBase_ofNat {b : Nat} (hb : b % 4 = 0) (hlt : b < 0x100000) : wordBase (BitVec.ofNat 20 b) = b := by
  simp only [wordBase, BitVec.toNat_ofNat]
  omega

/-- Byte k of a little-endian word (20_memory.md R62). -/
theorem wordAt_byte (s : State) (b : Nat) {k : Nat} (hk : k < 4) :
    (s.wordAt b).extractLsb' (8 * k) 8 = s.byteAt (b + k) := by
  have hk' : k = 0 ∨ k = 1 ∨ k = 2 ∨ k = 3 := by omega
  rcases hk' with rfl | rfl | rfl | rfl <;>
    simp (disch := omega) only [State.wordAt, BitVec.extractLsb'_append_eq_of_le,
      BitVec.extractLsb'_append_eq_of_add_le] <;> simp

/-- While BUSY = 0 a read of a region with storage returns the word stored there. -/
theorem readWord_storage {s : State} {a : HostAddr} (hb : s.busy = false)
    (hr : (regionOf (wordBase a)).lockedWhenBusy = true) : s.readWord a = s.wordAt (wordBase a) := by
  simp only [State.readWord, hb]
  cases hreg : regionOf (wordBase a) <;> simp [hreg, Region.lockedWhenBusy] at hr ⊢

/-- Buffers, ROM and GRID (20_memory.md R61). -/
theorem lockedWhenBusy_iff (a : Nat) : (regionOf a).lockedWhenBusy = true ↔
    (0x02000 ≤ a ∧ a < 0x06600) ∨ (0x10000 ≤ a ∧ a < 0x20000) := by
  simp only [regionOf]
  split_ifs <;> simp [Region.lockedWhenBusy] <;> omega

/-- Byte k of the word the host reads at a word address with storage. -/
theorem hostReads_byte {s : State} {b k : Nat} (hb : s.busy = false) (h4 : b % 4 = 0) (hk : k < 4)
    (hr : (0x02000 ≤ b ∧ b < 0x06600) ∨ (0x10000 ≤ b ∧ b < 0x20000)) :
    (s.hostReads (BitVec.ofNat 20 b)).extractLsb' (8 * k) 8 = s.byteAt (b + k) := by
  have hbase : wordBase (BitVec.ofNat 20 b) = b := wordBase_ofNat h4 (by omega)
  have hlock : (regionOf (wordBase (BitVec.ofNat 20 b))).lockedWhenBusy = true := by
    rw [hbase, lockedWhenBusy_iff]
    exact hr
  rw [hostReads_eq, readWord_storage hb hlock, hbase, wordAt_byte s b hk]

theorem byteAt_buffer (s : State) {a : Nat} (h : 0x02000 ≤ a) (h' : a < 0x06000) : s.byteAt a = s.memByte a := by
  have hr : regionOf a = .buffer := by
    rw [regionOf, if_neg (by omega), if_neg (by omega), if_pos h']
  simp only [State.byteAt, hr]

theorem byteAt_rom (s : State) {a : Nat} (h : 0x06000 ≤ a) (h' : a < 0x06600) : s.byteAt a = romByte a := by
  have hr : regionOf a = .rom := by
    rw [regionOf, if_neg (by omega), if_neg (by omega), if_neg (by omega), if_pos h']
  simp only [State.byteAt, hr]

theorem byteAt_grid (s : State) {a : Nat} (h : 0x10000 ≤ a) (h' : a < 0x20000) : s.byteAt a = s.gridByte a := by
  have hr : regionOf a = .grid := by
    rw [regionOf, if_neg (by omega), if_neg (by omega), if_neg (by omega), if_neg (by omega),
      if_neg (by omega), if_pos h']
  simp only [State.byteAt, hr]

theorem romByte_exp {j : Nat} (h : j < 256) : romByte (0x06000 + j) = expRom j := by
  rw [romByte, if_pos (by omega), Nat.add_sub_cancel_left]

theorem romByte_log {j : Nat} (h : j < 256) : romByte (0x06100 + j) = logRom j := by
  rw [romByte, if_neg (by omega), if_pos (by omega), Nat.add_sub_cancel_left]

/-- Row n of GEN: the coefficients of g_n, and 0 where there is none (20_memory.md R79). -/
theorem romByte_gen (n : Nat) {j : Nat} (h : j < 32) : romByte (0x06200 + 32 * n + j) =
    if 1 ≤ n ∧ n ≤ 30 ∧ j ≤ n then genRom n j else 0#8 := by
  have hrow : (0x06200 + 32 * n + j - 0x06200) / 32 = n := by omega
  have hcol : (0x06200 + 32 * n + j - 0x06200) % 32 = j := by omega
  rw [romByte, if_neg (by omega), if_neg (by omega), hrow, hcol]
  split_ifs with hin
  · rfl
  · have hout : n = 0 ∨ Config.params.genMax < n ∨ n < j := by
      have : Config.params.genMax = 30 := rfl
      omega
    rw [genRom, Params.gen, if_pos hout]

/-- The byte of cell (r, c), 0 for a phantom cell (20_memory.md R68). -/
theorem gridByte_cell (s : State) (r : Nat) {c : Nat} (h : c < 256) : s.gridByte (0x10000 + 256 * r + c) =
    if r < 177 ∧ c < 177 then 0#6 ++ BitVec.ofBool (s.resAt r c) ++ BitVec.ofBool (s.modAt r c) else 0#8 := by
  have hrow : gridRow (0x10000 + 256 * r + c) = r := by simp only [gridRow]; omega
  have hcol : gridCol (0x10000 + 256 * r + c) = c := by simp only [gridCol]; omega
  rw [State.gridByte, hrow, hcol]
  split_ifs with hin
  · rfl
  · have hphantom : inGrid r c = false := by simpa [inGrid, gridSide] using hin
    simp [State.resAt, State.modAt, Plane.cell, hphantom]

/-! ## The regions, byte by byte -/

section
variable {s : State} {k : Nat} (hb : s.busy = false) (hk : k < 4)
include hb hk

theorem hostReads_pbuf {i : Nat} (hi : i < 2048) :
    (s.hostReads (BitVec.ofNat 20 (0x02000 + 4 * i))).extractLsb' (8 * k) 8 = s.pbuf (4 * i + k) := by
  rw [hostReads_byte hb (by omega) hk (by omega), byteAt_buffer s (by omega) (by omega), State.pbuf, Nat.add_assoc]

theorem hostReads_dbuf {i : Nat} (hi : i < 1024) :
    (s.hostReads (BitVec.ofNat 20 (0x04000 + 4 * i))).extractLsb' (8 * k) 8 = s.dbuf (4 * i + k) := by
  rw [hostReads_byte hb (by omega) hk (by omega), byteAt_buffer s (by omega) (by omega), State.dbuf, Nat.add_assoc]

theorem hostReads_cwbuf {i : Nat} (hi : i < 1024) :
    (s.hostReads (BitVec.ofNat 20 (0x05000 + 4 * i))).extractLsb' (8 * k) 8 = s.cwbuf (4 * i + k) := by
  rw [hostReads_byte hb (by omega) hk (by omega), byteAt_buffer s (by omega) (by omega), State.cwbuf, Nat.add_assoc]

theorem hostReads_exp {i : Nat} (hi : i < 64) :
    (s.hostReads (BitVec.ofNat 20 (0x06000 + 4 * i))).extractLsb' (8 * k) 8 = expRom (4 * i + k) := by
  rw [hostReads_byte hb (by omega) hk (by omega), byteAt_rom s (by omega) (by omega), Nat.add_assoc,
    romByte_exp (by omega)]

theorem hostReads_log {i : Nat} (hi : i < 64) :
    (s.hostReads (BitVec.ofNat 20 (0x06100 + 4 * i))).extractLsb' (8 * k) 8 = logRom (4 * i + k) := by
  rw [hostReads_byte hb (by omega) hk (by omega), byteAt_rom s (by omega) (by omega), Nat.add_assoc,
    romByte_log (by omega)]

theorem hostReads_gen {n i : Nat} (hn : n < 32) (hi : i < 8) :
    (s.hostReads (BitVec.ofNat 20 (0x06200 + 32 * n + 4 * i))).extractLsb' (8 * k) 8 =
      if 1 ≤ n ∧ n ≤ 30 ∧ 4 * i + k ≤ n then genRom n (4 * i + k) else 0#8 := by
  rw [hostReads_byte hb (by omega) hk (by omega), byteAt_rom s (by omega) (by omega), Nat.add_assoc,
    romByte_gen n (by omega)]

theorem hostReads_grid {r i : Nat} (hr : r < 256) (hi : i < 64) :
    (s.hostReads (BitVec.ofNat 20 (0x10000 + 256 * r + 4 * i))).extractLsb' (8 * k) 8 =
      if r < 177 ∧ 4 * i + k < 177 then
        0#6 ++ BitVec.ofBool (s.resAt r (4 * i + k)) ++ BitVec.ofBool (s.modAt r (4 * i + k))
      else 0#8 := by
  rw [hostReads_byte hb (by omega) hk (by omega), byteAt_grid s (by omega) (by omega), Nat.add_assoc,
    gridByte_cell s r (by omega)]

end

/-- A host read of a register's own address. -/
theorem hostReads_csr (s : State) {a : HostAddr} (k : Csr) (h : wordBase a = k.offset) :
    s.hostReads a = csrRead k s := by rw [hostReads_eq, readWord_csr h]

/-- Settles O51: a register's address reads `csrRead` of the register, whose word is laid out above; a word of
storage reads its four bytes. -/
theorem statusCtrlAndDimRead : Obligations.StatusCtrlAndDimRead := by
  intro s
  have hstatus : s.hostReads 0x08#20 = s.statusWord := hostReads_csr s .status rfl
  obtain ⟨hbusy, hdone, herr, hacc⟩ := statusWord_flags s
  obtain ⟨h4, hcode, h12, hop, h24⟩ := statusWord_slices s
  simp only [hstatus]
  refine ⟨⟨hbusy, hdone, herr, hacc, h4, hcode, h12, hop, h24⟩, hostReads_csr s .id rfl, ?ctrl, ?config, ?plen,
    ?stage, ?segbits, ?modeused, ?maskid, hostReads_csr s .score rfl, ?dim, ?ndcw, ?ncw, ?gfres,
    hostReads_csr s .arg0 rfl, hostReads_csr s .arg1 rfl, hostReads_csr s .arg2 rfl, hostReads_csr s .arg3 rfl,
    hostReads_csr s (.mscore 0) rfl, hostReads_csr s (.mscore 1) rfl, hostReads_csr s (.mscore 2) rfl,
    hostReads_csr s (.mscore 3) rfl, hostReads_csr s (.mscore 4) rfl, hostReads_csr s (.mscore 5) rfl,
    hostReads_csr s (.mscore 6) rfl, hostReads_csr s (.mscore 7) rfl, fun hb k hk =>
      ⟨fun i => hostReads_pbuf hb hk, fun i hi => ⟨hostReads_dbuf hb hk hi, hostReads_cwbuf hb hk hi⟩,
        fun i hi => ⟨hostReads_exp hb hk hi, hostReads_log hb hk hi⟩, fun n hn i => hostReads_gen hb hk hn,
        fun r hr i => hostReads_grid hb hk hr⟩⟩
  case ctrl => rw [hostReads_csr s .ctrl rfl, csrRead, ctrlWord_toNat]
  case config => rw [hostReads_csr s .config rfl, csrRead, config_toWord_toNat]
  case plen => rw [hostReads_csr s .plen rfl, csrRead, BitVec.toNat_setWidth_of_le (by decide)]
  case stage => rw [hostReads_csr s .stage rfl, csrRead, stage_toWord_toNat]
  case segbits => rw [hostReads_csr s .segbits rfl, csrRead, BitVec.toNat_setWidth_of_le (by decide)]
  case modeused => rw [hostReads_csr s .modeused rfl, csrRead, BitVec.toNat_setWidth_of_le (by decide)]
  case maskid => rw [hostReads_csr s .maskid rfl, csrRead, maskid_toWord_toNat]
  case dim =>
    rw [hostReads_csr s .dim rfl, csrRead, BitVec.toNat_ofNat, Nat.mod_eq_of_lt (dimRegister_lt _), dimRegister_eq]
  case ndcw => rw [hostReads_csr s .ndcw rfl, csrRead, BitVec.toNat_setWidth_of_le (by decide)]
  case ncw => rw [hostReads_csr s .ncw rfl, csrRead, BitVec.toNat_setWidth_of_le (by decide)]
  case gfres => rw [hostReads_csr s .gfres rfl, csrRead, BitVec.toNat_setWidth_of_le (by decide)]

end Sys2Proof.Machine
end

section
/-!
PROOFS. The host's window on storage: the low address bits, reads, a word of the buffers or of the GRID written and
read back; and the two tables of 20_memory.md R88 and R92.
-/

namespace Sys2Proof.Machine

/-! ## An access sees its word address only -/

theorem readWord_congr {a b : HostAddr} (h : wordBase a = wordBase b) (s : State) : s.readWord a = s.readWord b := by
  simp only [State.readWord, h]

theorem hostRead_congr {a b : HostAddr} (h : wordBase a = wordBase b) (s : State) : hostRead a s = hostRead b s := by
  simp only [hostRead, h, readWord_congr h]

theorem hostWrite_congr {a b : HostAddr} (h : wordBase a = wordBase b) (w : Word) (s : State) :
    hostWrite a w s = hostWrite b w s := by
  simp only [hostWrite, h]

/-- Settles O46: a and its word address have the same word address, which is all an access looks at. -/
theorem addressLowBitsAreIgnored : Obligations.AddressLowBitsAreIgnored := by
  intro a b w s hb
  have hbase : wordBase a = wordBase b := by
    simp only [wordBase]
    omega
  exact ⟨hostRead_congr hbase s, hostWrite_congr hbase w s⟩

/-! ## Reads -/

/-- A read that is not refused changes the word read and nothing else (20_memory.md R66, R67). -/
theorem hostRead_of_unlocked {a : HostAddr} {s : State}
    (h : s.busy = false ∨ (regionOf (wordBase a)).lockedWhenBusy = false) :
    hostRead a s = { s with readData := s.readWord a } := by
  obtain he | ⟨hb, hlock, -⟩ := hostRead_cases a s
  · exact he
  · simp [hb, hlock] at h

/-- Unmapped addresses and reserved registers read 0 (20_memory.md R66; 10_state.md R45). -/
theorem readWord_eq_zero {a : HostAddr} (h : regionOf (wordBase a) = .unmapped ∨
    (regionOf (wordBase a) = .csr ∧ csrAt (wordBase a) = none)) (s : State) : s.readWord a = 0#32 := by
  obtain hr | ⟨hr, hnone⟩ := h
  · simp only [State.readWord, hr]
  · simp only [State.readWord, hr, hnone]

/-- Settles O48: the regions the statement names are never locked, so no such read is refused. -/
theorem readsHaveNoSideEffect : Obligations.ReadsHaveNoSideEffect := by
  refine ⟨fun s a h => hostRead_of_unlocked (h.imp_right fun hr => ?_), fun s a h => ?_⟩
  · simp only [List.mem_cons, List.not_mem_nil, or_false] at hr
    obtain hr | hr := hr <;> rw [hr] <;> rfl
  · have hlock : (regionOf (wordBase a)).lockedWhenBusy = false := by
      obtain hr | ⟨hr, -⟩ := h <;> rw [hr] <;> rfl
    rw [hostRead_of_unlocked (.inr hlock), readWord_eq_zero h]

/-! ## Words and their bytes -/

/-- Words with the same four bytes are equal. -/
theorem word_ext {v w : Word} (h : ∀ k < 4, v.extractLsb' (8 * k) 8 = w.extractLsb' (8 * k) 8) : v = w := by
  refine BitVec.eq_of_getLsbD_eq fun i hi => ?_
  have hbit := congrArg (fun b : Byte => b.getLsbD (i % 8)) (h (i / 8) (by omega))
  simpa [Nat.mod_lt, Nat.div_add_mod] using hbit

/-- Byte k of the word to be stored (20_memory.md R62). -/
theorem wordBytes_getElem (w : Word) {k : Nat} (hk : k < (wordBytes w).length) :
    (wordBytes w)[k] = w.extractLsb' (8 * k) 8 := by
  match k, hk with
  | 0, _ | 1, _ | 2, _ | 3, _ => rfl

/-- Byte k of the word the host reads at any address of a region with storage. -/
theorem hostReads_storageByte {s : State} {a : HostAddr} {k : Nat} (hb : s.busy = false)
    (hr : (regionOf (wordBase a)).lockedWhenBusy = true) (hk : k < 4) :
    (s.hostReads a).extractLsb' (8 * k) 8 = s.byteAt (wordBase a + k) := by
  rw [hostReads_eq, readWord_storage hb hr, wordAt_byte s _ hk]

/-! ## A word of the buffers -/

theorem hostWrite_buffer {a : HostAddr} {s : State} (hb : s.busy = false) (hr : regionOf (wordBase a) = .buffer)
    (w : Word) : hostWrite a w s = s.store (wordBase a) (wordBytes w) := by
  simp only [hostWrite, hr, hb, Bool.false_eq_true, if_false]

@[simp] theorem store_busy (s : State) (base : Nat) (bs : List Byte) : (s.store base bs).busy = s.busy := rfl

/-- A store into the memory is seen in no byte outside it, of any region. -/
theorem sameBytesOutside_store (s : State) (base : Nat) (bs : List Byte) :
    sameBytesOutside s (s.store base bs) base bs.length := by
  intro a ha
  simp only [State.byteAt, memByte_store_outside s base bs a ha]
  rfl

/-- Byte k of a buffer word stored. -/
theorem byteAt_store_wordBytes (s : State) {a : HostAddr} (hr : regionOf (wordBase a) = .buffer) (w : Word) {k : Nat}
    (hk : k < 4) : (s.store (wordBase a) (wordBytes w)).byteAt (wordBase a + k) = w.extractLsb' (8 * k) 8 := by
  have hmod := wordBase_mod a
  obtain ⟨hlo, hhi⟩ := regionOf_buffer hr
  rw [bufferBase] at hlo
  rw [bufferEnd] at hhi
  rw [byteAt_buffer _ (by omega) (by omega), memByte_store_inside _ _ _ _ (by simpa using hk), wordBytes_getElem]

/-- Settles O49: the write is one store of the word's bytes, and the word read back has these bytes. -/
theorem bufferWordReadsBack : Obligations.BufferWordReadsBack := by
  intro s a w hb hr
  have hlock : (regionOf (wordBase a)).lockedWhenBusy = true := by rw [hr]; rfl
  have hwrite : hostAccess (.write a w) s = s.store (wordBase a) (wordBytes w) := hostWrite_buffer hb hr w
  have hbyte := fun k (hk : k < 4) => byteAt_store_wordBytes s hr w hk
  have hframe := sameBytesOutside_store s (wordBase a) (wordBytes w)
  rw [wordBytes_length] at hframe
  simp only [hwrite]
  refine ⟨rfl, word_ext fun k hk => ?_, hbyte, hframe⟩
  rw [hostReads_storageByte (by rw [store_busy, hb]) hlock hk, hbyte k hk]

/-! ## A word of the GRID -/

theorem hostWrite_grid {a : HostAddr} {s : State} (hb : s.busy = false) (hr : regionOf (wordBase a) = .grid)
    (w : Word) : hostWrite a w s = gridStore (wordBase a) w s := by
  simp only [hostWrite, hr, hb, Bool.false_eq_true, if_false]

@[simp] theorem gridStore_busy (b : Nat) (w : Word) (s : State) : (gridStore b w s).busy = s.busy := by
  simp only [State.busy, gridStore_pending]

theorem regionOf_grid {a : Nat} (h : regionOf a = .grid) : 0x10000 ≤ a ∧ a < 0x20000 := by
  simp only [regionOf] at h
  split_ifs at h
  omega

/-- Two GRID addresses with the same row and column are the same (20_memory.md R68). -/
theorem gridAddress_inj {a b : Nat} (ha : 0x10000 ≤ a) (hb : 0x10000 ≤ b) (hrow : gridRow a = gridRow b)
    (hcol : gridCol a = gridCol b) : a = b := by
  simp only [gridRow, gridCol] at hrow hcol
  omega

/-- The assignments of a GRID word write: one for each of the four bytes. -/
theorem mem_gridWordDraws {b bit : Nat} {w : Word} {d : Draw} : d ∈ gridWordDraws b w bit ↔
    ∃ k < 4, d = (gridRow (b + k), gridCol (b + k), (w.extractLsb' (8 * k) 8).getLsbD bit) := by
  simp only [gridWordDraws, List.mem_map, Prod.exists, List.mk_mem_zipIdx_iff_getElem?]
  constructor
  · rintro ⟨v, k, hk, rfl⟩
    obtain ⟨hlt, rfl⟩ := List.getElem?_eq_some_iff.mp hk
    exact ⟨k, hlt, by rw [wordBytes_getElem w hlt]⟩
  · rintro ⟨k, hk, rfl⟩
    exact ⟨_, k, List.getElem?_eq_some_iff.mpr ⟨hk, wordBytes_getElem w hk⟩, rfl⟩

section
variable {b : Nat} (hb : 0x10000 ≤ b) (p : Plane) (free : Nat → Bool) (w : Word) (bit : Nat)
include hb

/-- A cell of the word written holds its bit; a phantom cell reads 0. -/
theorem cell_gridWordDraws_inside {k : Nat} (hk : k < 4) :
    (p.draw (gridWordDraws b w bit)).cell free (gridRow (b + k)) (gridCol (b + k)) =
      (inGrid (gridRow (b + k)) (gridCol (b + k)) && (w.extractLsb' (8 * k) 8).getLsbD bit) := by
  cases hin : inGrid (gridRow (b + k)) (gridCol (b + k)) with
  | false => simp [Plane.cell, hin]
  | true =>
    refine cell_draw_of_mem _ _ _ _ _ _ hin (mem_gridWordDraws.mpr ⟨k, hk, by simp⟩) fun d hd hrow hcol => ?_
    obtain ⟨j, -, rfl⟩ := mem_gridWordDraws.mp hd
    obtain rfl : j = k := Nat.add_left_cancel (gridAddress_inj (by omega) (by omega) hrow hcol)
    simp

/-- A cell at an address outside the word written stays. -/
theorem cell_gridWordDraws_outside {a : Nat} (ha : 0x10000 ≤ a) (hout : ¬ (b ≤ a ∧ a < b + 4)) :
    (p.draw (gridWordDraws b w bit)).cell free (gridRow a) (gridCol a) = p.cell free (gridRow a) (gridCol a) := by
  refine cell_draw_of_not_mem _ _ _ _ _ fun d hd => ?_
  obtain ⟨j, hlt, rfl⟩ := mem_gridWordDraws.mp hd
  rintro ⟨hrow, hcol⟩
  have haddr : b + j = a := gridAddress_inj (by omega) ha hrow hcol
  omega

end

/-- Bits 1 and 0 of a byte, with 0 above. -/
theorem lowBits_append (x : Byte) :
    0#6 ++ BitVec.ofBool (x.getLsbD 1) ++ BitVec.ofBool (x.getLsbD 0) = x &&& 0x03#8 := by
  revert x
  decide

/-- Byte k of a GRID word stored: bits 1:0 of the byte written, 0 for a phantom cell (20_memory.md R68). -/
theorem gridByte_gridStore_inside {b k : Nat} (hb : 0x10000 ≤ b) (hk : k < 4) (w : Word) (s : State) :
    (gridStore b w s).gridByte (b + k) = if gridRow (b + k) < 177 ∧ gridCol (b + k) < 177 then
        w.extractLsb' (8 * k) 8 &&& 0x03#8
      else 0#8 := by
  simp only [State.gridByte, State.resAt, State.modAt, gridStore_res, gridStore_mod,
    cell_gridWordDraws_inside hb _ _ _ _ hk, inGrid, gridSide]
  split_ifs with hin
  · simp only [hin, and_self, decide_true, Bool.true_and, lowBits_append]
  · simp only [hin, decide_false, Bool.false_and]
    rfl

theorem gridByte_gridStore_outside {a b : Nat} (hb : 0x10000 ≤ b) (ha : 0x10000 ≤ a) (hout : ¬ (b ≤ a ∧ a < b + 4))
    (w : Word) (s : State) : (gridStore b w s).gridByte a = s.gridByte a := by
  simp only [State.gridByte, State.resAt, State.modAt, gridStore_res, gridStore_mod, gridStore_epoch,
    cell_gridWordDraws_outside hb _ _ _ _ ha hout]

/-- A GRID word stored is seen in no byte outside it, of any region. -/
theorem sameBytesOutside_gridStore {b : Nat} (hb : 0x10000 ≤ b) (w : Word) (s : State) :
    sameBytesOutside s (gridStore b w s) b 4 := by
  intro a hout
  cases hr : regionOf a with
  | csr | rom | unmapped => simp only [State.byteAt, hr]
  | buffer => simp only [State.byteAt, hr, memByte_congr (gridStore_mem b w s) (gridStore_epoch b w s)]
  | grid => simp only [State.byteAt, hr, gridByte_gridStore_outside hb (regionOf_grid hr).1 hout]

/-- Settles O50: a GRID address is one cell, and a word write assigns the two bits of its four cells. -/
theorem gridWordReadsBack : Obligations.GridWordReadsBack := by
  refine ⟨fun s r c hr hc => ?_, fun s a w hb hr => ?_⟩
  · rw [byteAt_grid s (by omega) (by omega), gridByte_cell s r hc]
  have hmod := wordBase_mod a
  obtain ⟨hlo, hhi⟩ := regionOf_grid hr
  have hlock : (regionOf (wordBase a)).lockedWhenBusy = true := by rw [hr]; rfl
  have hwrite : hostAccess (.write a w) s = gridStore (wordBase a) w s := hostWrite_grid hb hr w
  simp only [hwrite]
  refine ⟨rfl, fun k hk => ?_, sameBytesOutside_gridStore hlo w s⟩
  have hbyte : (gridStore (wordBase a) w s).byteAt (wordBase a + k) = _ :=
    (byteAt_grid _ (by omega) (by omega)).trans (gridByte_gridStore_inside hlo hk w s)
  exact ⟨hbyte, (hostReads_storageByte (by rw [gridStore_busy, hb]) hlock hk).trans hbyte⟩

/-! ## The legal symbols (20_memory.md R92) -/

/-- versionOK by the numbers (10_state.md R32). -/
theorem versionOK_iff (c : SymbolConfig) : c.versionOK = true ↔
    (c.micro = false ∧ 1 ≤ c.version.toNat ∧ c.version.toNat ≤ 40) ∨
    (c.micro = true ∧ 1 ≤ c.version.toNat ∧ c.version.toNat ≤ 4) := by
  rw [SymbolConfig.versionOK, SymbolConfig.ver]
  cases c.micro <;> simp

/-- The number of a level in csr.CONFIG.ECC (30_encoding.md R108). -/
def EccLevel.number : EccLevel → Nat
  | .none => 0
  | .l => 1
  | .m => 2
  | .q => 3
  | .h => 4

theorem level_eq_some_iff (c : SymbolConfig) (level : EccLevel) :
    c.level = some level ↔ c.ecc.toNat = level.number := by
  simp only [SymbolConfig.level]
  split <;> cases level <;> simp_all [EccLevel.number]

/-- eccOK by the numbers of the levels R92 lists (10_state.md R32). -/
theorem eccOK_iff (c : SymbolConfig) :
    c.eccOK = true ↔ c.ecc.toNat ∈ (legalEcc c.micro c.ver).map EccLevel.number := by
  simp only [List.mem_map, eq_comm (b := c.ecc.toNat), ← level_eq_some_iff]
  cases hl : c.level <;> simp [SymbolConfig.eccOK, hl]

theorem check_eq_unsupportedVersion_iff (c : SymbolConfig) :
    c.check = some .unsupportedVersion ↔ c.versionOK = false := by
  cases hv : c.versionOK <;> cases he : c.eccOK <;> simp [SymbolConfig.check, hv, he]

theorem check_eq_invalidEccLevel_iff (c : SymbolConfig) :
    c.check = some .invalidEccLevel ↔ c.versionOK = true ∧ c.eccOK = false := by
  cases hv : c.versionOK <;> cases he : c.eccOK <;> simp [SymbolConfig.check, hv, he]

/-- The levels of R92 by number, for a legal version. -/
theorem eccOK_iff_numbers {c : SymbolConfig} (hv : c.versionOK = true) : c.eccOK = true ↔
    (c.micro = false ∧ c.ecc.toNat ∈ [1, 2, 3, 4]) ∨ (c.micro = true ∧ c.version.toNat = 1 ∧ c.ecc.toNat = 0) ∨
    (c.micro = true ∧ c.version.toNat ∈ [2, 3] ∧ c.ecc.toNat ∈ [1, 2]) ∨
    (c.micro = true ∧ c.version.toNat = 4 ∧ c.ecc.toNat ∈ [1, 2, 3]) := by
  rw [eccOK_iff, legalEcc_eq, SymbolConfig.ver]
  obtain ⟨hm, -, -⟩ | ⟨hm, hpos, hle⟩ := (versionOK_iff c).mp hv
  · simp [hm, isoLegalEcc, EccLevel.number]
  · have hver : c.version.toNat = 1 ∨ c.version.toNat = 2 ∨ c.version.toNat = 3 ∨ c.version.toNat = 4 := by omega
    rcases hver with h | h | h | h <;> simp [hm, h, isoLegalEcc, EccLevel.number]

/-- Settles O10: the check tells the version first, then the level, and both are R92's rows by number. -/
theorem configLegalityTable : Obligations.ConfigLegalityTable := by
  intro c v e versionLegal levelLegal
  have hv : c.versionOK = true ↔ versionLegal := versionOK_iff c
  have hl : versionLegal → (c.eccOK = true ↔ levelLegal) := fun h => eccOK_iff_numbers (hv.mpr h)
  refine ⟨?_, ?_, ?_⟩
  · rw [check_eq_unsupportedVersion_iff, ← hv, Bool.not_eq_true]
  · rw [check_eq_invalidEccLevel_iff, hv, ← Bool.not_eq_true]
    exact and_congr_right fun h => not_congr (hl h)
  · rw [check_eq_none_iff, hv]
    exact and_congr_right hl

/-! ## The AlphaNumeric set (20_memory.md R88) -/

/-- Settles O23: both sides are evaluated at each of the 256 bytes. -/
theorem alnumValuesFollowTheListedOrder : Obligations.AlnumValuesFollowTheListedOrder := by
  unfold Obligations.AlnumValuesFollowTheListedOrder
  decide

end Sys2Proof.Machine
end

section
/-!
PROOFS. The decoder and the encoder (30_encoding.md R106, R114): a word is its three fields, and it decodes to a
command exactly when it has that command's opcode, its immediate and RSV = 0.
-/

namespace Sys2Proof.Machine

/-! ## The fields of a command word -/

/-- A word is its fields RSV, IMM and OP, in this order (30_encoding.md R100). -/
theorem word_eq_fields (w : Word) : w = rsvField w ++ immField w ++ opField w := by
  refine BitVec.eq_of_getLsbD_eq fun k hk => ?_
  simp only [rsvField, immField, opField, BitVec.getLsbD_append, BitVec.getLsbD_extractLsb']
  by_cases hop : k < 8
  · simp [hop]
  · by_cases himm : k - 8 < 3
    · simp [hop, himm, show 8 + (k - 8) = k by omega]
    · simp [hop, himm, show k - 8 - 3 < 21 by omega, show 11 + (k - 8 - 3) = k by omega]

/-- The fields of every command's word, from the facts command by command. -/
theorem encodedWord (i : Instr) : Laws.EncodedWord.Statement i := by
  cases i with
  | nop => exact Laws.EncodedWord.nop
  | pack => exact Laws.EncodedWord.pack
  | gfmul => exact Laws.EncodedWord.gfmul
  | rsenc => exact Laws.EncodedWord.rsenc
  | eccgen => exact Laws.EncodedWord.eccgen
  | reserve => exact Laws.EncodedWord.reserve
  | fill => exact Laws.EncodedWord.fill
  | maskapply p => exact Laws.EncodedWord.maskapply p
  | maskscore p => exact Laws.EncodedWord.maskscore p
  | masksel => exact Laws.EncodedWord.masksel
  | format => exact Laws.EncodedWord.format
  | encode => exact Laws.EncodedWord.encode

/-- The encoder's number is the one 30_encoding.md R114 gives. -/
theorem encode_toNat (i : Instr) : (encode i).toNat = (i.immediate.toNat <<< 8) ||| i.opcode.toNat := by
  have happend : (encode i).toNat = (0#21 ++ i.immediate).toNat <<< 8 ||| i.opcode.toNat := BitVec.toNat_append _ _
  rw [happend, BitVec.toNat_append]
  simp

/-! ## The decoder -/

/-- Only MASKAPPLY and MASKSCORE have an immediate (30_encoding.md R104). -/
theorem immediate_eq_zero {i : Instr} (happly : i.opcode ≠ 0x40#8) (hscore : i.opcode ≠ 0x41#8) :
    i.immediate = 0#3 := by
  cases i with
  | maskapply p => exact absurd rfl happly
  | maskscore p => exact absurd rfl hscore
  | _ => rfl

/-- The command an opcode selects: the one of that opcode, with p its immediate where it takes one. -/
theorem commandOf_eq_some_iff {op : BitVec 8} {p : BitVec 3} {i : Instr} :
    commandOf op p = some i ↔ op = i.opcode ∧ (op = 0x40#8 ∨ op = 0x41#8 → p = i.immediate) := by
  constructor
  · intro h
    unfold commandOf at h
    split at h <;> cases h <;> simp [Instr.opcode, Instr.immediate]
  · rintro ⟨rfl, hp⟩
    cases i with
    | maskapply q => obtain rfl := hp (.inl rfl); rfl
    | maskscore q => obtain rfl := hp (.inr rfl); rfl
    | _ => rfl

/-- The three checks of 30_encoding.md R106. -/
theorem decode_eq_ok_iff_checks {w : Word} {i : Instr} :
    decode w = .ok i ↔ commandOf (opField w) (immField w) = some i ∧ rsvField w = 0#21 ∧
      (opField w ≠ 0x40#8 → opField w ≠ 0x41#8 → immField w = 0#3) := by
  rw [decode]
  cases commandOf (opField w) (immField w) with
  | none => simp
  | some j =>
    simp only [Option.some.injEq]
    split_ifs with hrsv himm
    · simp [hrsv]
    · simp [himm]
    · simp_all

/-- A word decodes to a command exactly when its fields are the command's opcode, its immediate and 0. -/
theorem decode_eq_ok_iff {w : Word} {i : Instr} :
    decode w = .ok i ↔ opField w = i.opcode ∧ immField w = i.immediate ∧ rsvField w = 0#21 := by
  rw [decode_eq_ok_iff_checks, commandOf_eq_some_iff]
  constructor
  · rintro ⟨⟨hop, hp⟩, hrsv, hzero⟩
    refine ⟨hop, ?_, hrsv⟩
    by_cases htakes : opField w = 0x40#8 ∨ opField w = 0x41#8
    · exact hp htakes
    · obtain ⟨happly, hscore⟩ := not_or.mp htakes
      rw [hzero happly hscore, immediate_eq_zero (hop ▸ happly) (hop ▸ hscore)]
  · rintro ⟨hop, himm, hrsv⟩
    exact ⟨⟨hop, fun _ => himm⟩, hrsv, fun happly hscore =>
      himm.trans (immediate_eq_zero (hop ▸ happly) (hop ▸ hscore))⟩

theorem decode_encode (i : Instr) : decode (encode i) = .ok i := by
  obtain ⟨-, hop, himm, hrsv⟩ := encodedWord i
  exact decode_eq_ok_iff.mpr ⟨hop, himm, hrsv⟩

theorem encode_of_decode {w : Word} {i : Instr} (h : decode w = .ok i) : encode i = w := by
  obtain ⟨hop, himm, hrsv⟩ := decode_eq_ok_iff.mp h
  rw [word_eq_fields w, hop, himm, hrsv, encode]

/-- Settles O1: a word is its three fields, and the decoder answers a command exactly for that command's fields. -/
theorem decodeAndEncodeAgree : Obligations.DecodeAndEncodeAgree :=
  ⟨encode_toNat, decode_encode, fun _ _ => encode_of_decode⟩

/-- Settles O3: the decoder is evaluated at each of the eleven words. -/
theorem sampleWordsDecode : Obligations.SampleWordsDecode := by
  unfold Obligations.SampleWordsDecode
  decide

/-! ## Legal and illegal words -/

/-- The word passes the three checks of 30_encoding.md R106, which are those of `CommandWord.wellFormed`. -/
theorem wellFormed_iff (w : Word) : CommandWord.wellFormed w = true ↔
    opField w ∈ knownOpcodes ∧ rsvField w = 0#21 ∧ (opField w ∉ immediateOpcodes → immField w = 0#3) := by
  simp only [CommandWord.wellFormed, CommandWord.opKnown, CommandWord.rsvZero, CommandWord.immAllowed,
    Bool.and_eq_true, Bool.or_eq_true, List.contains_iff_mem, beq_iff_eq, and_assoc, or_iff_not_imp_left]
  rfl

/-- Every opcode of the map has its command, for every immediate. -/
theorem commandOf_of_known {op : BitVec 8} (h : op ∈ knownOpcodes) (p : BitVec 3) :
    ∃ i, commandOf op p = some i := by
  have hall : ∀ op ∈ knownOpcodes, ∀ p, (commandOf op p).isSome = true := by decide
  exact Option.isSome_iff_exists.mp (hall op h p)

/-- The decoder answers a command for the well-formed words and for no other (30_encoding.md R106, R107). -/
theorem wellFormed_iff_decodes (w : Word) : CommandWord.wellFormed w = true ↔ ∃ i, decode w = .ok i := by
  constructor
  · intro h
    obtain ⟨hop, hrsv, himm⟩ := (wellFormed_iff w).mp h
    obtain ⟨i, hi⟩ := commandOf_of_known hop (immField w)
    exact ⟨i, decode_eq_ok_iff_checks.mpr ⟨hi, hrsv, fun happly hscore =>
      himm (by simp [immediateOpcodes, happly, hscore])⟩⟩
  · rintro ⟨i, hi⟩
    obtain ⟨hwf, -, -, -⟩ := encodedWord i
    rwa [encode_of_decode hi] at hwf

/-- Settles O2: the legal words are the well-formed ones, so they decode, and their fields are the command's; every
other word is answered by `illegalCommand`. -/
theorem everyWordIsOneCommandOrIllegal : Obligations.EveryWordIsOneCommandOrIllegal := by
  intro w s hp ha op imm legal
  have hlegal : legal ↔ ∃ i, decode w = .ok i := by
    rw [← wellFormed_iff_decodes, wellFormed_iff]
    have hmem : ∀ ops : List (BitVec 8), op.toNat ∈ ops.map BitVec.toNat ↔ op ∈ ops := fun ops =>
      List.mem_map_of_injective BitVec.toNat_injective
    exact and_congr (hmem knownOpcodes)
      (and_congr_right fun _ => imp_congr (not_congr (hmem immediateOpcodes)) Iff.rfl)
  refine ⟨fun h => ?_, fun h => ?_⟩
  · obtain ⟨i, hi⟩ := hlegal.mp h
    obtain ⟨hop, himm, -⟩ := decode_eq_ok_iff.mp hi
    exact ⟨i, hop.symm, himm.symm, (step_nil ha).trans (coreStep_command hp hi)⟩
  · cases hd : decode w with
    | ok i => exact absurd (hlegal.mpr ⟨i, hd⟩) h
    | error e => exact (step_nil ha).trans (coreStep_illegal hp hd)

end Sys2Proof.Machine
end

section
/-!
PROOFS. WAIT ends (30_encoding.md R113; 70_reset_and_hazards.md R353): reads of STATUS leave the latch alone, the
core's turn completes what is pending, and the read after it sees the completion.
-/

namespace Sys2Proof.Machine

/-- Every command answers, keeps the agenda, empties the latch and sets DONE (60_exceptions.md R303, R304). -/
theorem exec_completes (i : Instr) (s : State) : ∃ t, exec i s = .next t ∧ t.agenda = s.agenda ∧ t.pending = none ∧
    t.status.done = true := by
  rw [exec_eq]
  cases commandCheck i s with
  | some e => exact ⟨completeError e (errorOpcode i) s, rfl, rfl, rfl, rfl⟩
  | none => exact ⟨completeOk (commandWrites i s), rfl, (commandWrites_sameOperands i s).agenda, rfl, rfl⟩

/-- The core's step answers, keeps the agenda and leaves the latch empty; what was pending is DONE. -/
theorem coreStep_completes (s : State) : ∃ t, coreStep s = .next t ∧ t.agenda = s.agenda ∧ t.pending = none ∧
    (s.pending ≠ none → t.status.done = true) := by
  cases hp : s.pending with
  | none => exact ⟨s, coreStep_idle hp, rfl, hp, fun h => absurd rfl h⟩
  | some w =>
    cases hd : decode w with
    | error e => exact ⟨_, coreStep_illegal hp hd, rfl, rfl, fun _ => rfl⟩
    | ok i =>
      obtain ⟨t, hexec, hag, hnone, hdone⟩ := exec_completes i s
      exact ⟨t, (coreStep_command hp hd).trans hexec, hag, hnone, fun _ => hdone⟩

/-- A run goes on from the state a step answers. -/
theorem run_succ {s t : State} (h : step s = .next t) (k : Nat) :
    Host.Core.run Sys2Proof.core (k + 1) s = Host.Core.run Sys2Proof.core k t := by
  have hcore : Sys2Proof.core.step s = .next t := h
  simp only [Host.Core.run, hcore]

/-- A turn of the host that reads STATUS changes nothing but the agenda and the word read (10_state.md R24, R28). -/
theorem step_statusRead {s : State} {rest : List Turn} (h : s.agenda = .host (rdCsr .status) :: rest) :
    step s = .next { s with agenda := rest, readData := s.statusWord } := by
  have hread := hostRead_of_unlocked (a := Csr.status.addr) (s := { s with agenda := rest }) (.inr rfl)
  rw [readWord_csr (k := .status) rfl] at hread
  exact (step_host h).trans (congrArg Host.Outcome.next hread)

/-- Settles O6, by induction on the reads before the core's turn: each keeps the latch, the core's turn completes the
command, and the last read returns the STATUS word of the completed state. -/
theorem waitSeesTheCommandComplete : Obligations.WaitSeesTheCommandComplete := by
  intro s n rest hag
  induction n generalizing s with
  | zero =>
    obtain ⟨t, hcore, htag, hnone, hdone⟩ := coreStep_completes { s with agenda := .host (rdCsr .status) :: rest }
    have hfirst : step s = .next t := (step_core hag).trans hcore
    obtain ⟨hbusyBit, hdoneBit, -, -⟩ := statusWord_flags t
    refine ⟨_, (run_succ hfirst 1).trans (run_succ (step_statusRead htag) 0), rfl, hnone, ?_, fun h => ?_⟩
    · exact hbusyBit.trans ((busy_false_iff t).mpr hnone)
    · exact hdoneBit.trans (hdone h)
  | succ n ih =>
    have hread : s.agenda = .host (rdCsr .status) :: (waitTurns n ++ rest) := hag
    rw [run_succ (step_statusRead hread)]
    exact ih _ rfl

end Sys2Proof.Machine
end

section
/-!
PROOFS. What each command may write (30_encoding.md R104), register by register, plane by plane, and the buffer bytes
by region.
-/

namespace Sys2Proof.Machine

/-! ## Registers and planes -/

/-- No stage of ENCODE writes GFRES (44_format_control.md R287). -/
theorem encodeWrites_gfres (s : State) : (encodeWrites s).gfres = s.gfres := by
  simp [encodeWrites, formatWrites, maskselWrites, applyMask, fillWrites, reserveWrites, eccgenWrites, packWrites]

section
variable (i : Instr) (s : State)

theorem commandWrites_gfres (h : i ≠ .gfmul) : (commandWrites i s).gfres = s.gfres := by
  cases i with
  | gfmul => exact absurd rfl h
  | encode => exact encodeWrites_gfres s
  | _ => rfl

theorem commandWrites_packResults (h : i ∉ [Instr.pack, .encode]) : (commandWrites i s).segbits = s.segbits ∧
    (commandWrites i s).modeused = s.modeused ∧ (commandWrites i s).ndcw = s.ndcw := by
  cases i with
  | pack | encode => simp at h
  | _ => exact ⟨rfl, rfl, rfl⟩

theorem commandWrites_ncw (h : i ∉ [Instr.eccgen, .encode]) : (commandWrites i s).ncw = s.ncw := by
  cases i with
  | eccgen | encode => simp at h
  | _ => rfl

theorem commandWrites_maskResults (h : i ∉ [Instr.masksel, .encode]) :
    (commandWrites i s).maskid = s.maskid ∧ (commandWrites i s).mscore = s.mscore := by
  cases i with
  | masksel | encode => simp at h
  | _ => exact ⟨rfl, rfl⟩

theorem commandWrites_score (h : i.opcode ∉ [0x41#8, 0x42#8, 0x60#8]) : (commandWrites i s).score = s.score := by
  cases i with
  | maskscore | masksel | encode => simp [Instr.opcode] at h
  | _ => rfl

theorem commandWrites_stage (h : i.opcode ∉ [0x10#8, 0x22#8, 0x30#8, 0x31#8, 0x42#8, 0x50#8, 0x60#8]) :
    (commandWrites i s).stage = s.stage := by
  cases i with
  | nop | gfmul | rsenc | maskapply | maskscore => rfl
  | _ => simp [Instr.opcode] at h

theorem commandWrites_res (h : i ∉ [Instr.reserve, .encode]) : (commandWrites i s).res = s.res := by
  cases i with
  | reserve | encode => simp at h
  | _ => rfl

theorem commandWrites_mod (h : i.opcode ∉ [0x30#8, 0x31#8, 0x40#8, 0x42#8, 0x50#8, 0x60#8]) :
    (commandWrites i s).mod = s.mod := by
  cases i with
  | nop | pack | gfmul | rsenc | eccgen | maskscore => rfl
  | _ => simp [Instr.opcode] at h

end

/-! ## Buffer bytes -/

/-- A byte a store changes lies in the range stored. -/
theorem range_of_memByte_store_ne {s : State} {base a : Nat} {bs : List Byte}
    (h : (s.store base bs).memByte a ≠ s.memByte a) : base ≤ a ∧ a < base + bs.length :=
  not_imp_comm.mp (memByte_store_outside s base bs a) h

/-- RSENC's error words end inside CWBUF (40_gf_rs.md R136). -/
theorem rsencTarget_le {s : State} (h : rsencCheck s = none) : s.arg3.toNat + s.arg2.toNat ≤ 4096 := by
  simp only [rsencCheck] at h
  split_ifs at h
  omega

theorem packWrites_memByte_ne {s : State} {a : Nat} (hc : s.config.check = none)
    (h : (packWrites s).memByte a ≠ s.memByte a) : 0x04000 ≤ a ∧ a < 0x05000 := by
  have hn := nData_le hc
  obtain ⟨hlo, hhi⟩ := range_of_memByte_store_ne (base := dbufBase)
    (bs := bytesOfBits s.config.nData (packStream s)) h
  rw [bytesOfBits_length, dbufBase] at hhi
  exact ⟨hlo, by omega⟩

theorem eccgenWrites_memByte_ne {s : State} {a : Nat} (hc : s.config.check = none)
    (h : (eccgenWrites s).memByte a ≠ s.memByte a) : 0x05000 ≤ a ∧ a < 0x06000 := by
  have hn := eccSequence_length_le hc
  obtain ⟨hlo, hhi⟩ := range_of_memByte_store_ne (base := cwbufBase) (bs := eccSequence s) h
  rw [cwbufBase] at hhi
  exact ⟨hlo, by omega⟩

theorem rsencWrites_memByte_ne {s : State} {a : Nat} (hc : rsencCheck s = none)
    (h : (rsencWrites s).memByte a ≠ s.memByte a) : 0x05000 ≤ a ∧ a < 0x06000 := by
  have htarget := rsencTarget_le hc
  obtain ⟨hlo, hhi⟩ := range_of_memByte_store_ne h
  rw [cwbufBase] at hlo hhi
  rw [rsRemainder_length] at hhi
  omega

/-- Of the stages of ENCODE only PACK and ECCGEN write the buffers (44_format_control.md R287). -/
theorem encodeWrites_memByte (s : State) (a : Nat) :
    (encodeWrites s).memByte a = (eccgenWrites (packWrites s)).memByte a := by
  refine memByte_congr ?_ ?_ a <;>
    simp [encodeWrites, formatWrites, maskselWrites, applyMask, fillWrites, reserveWrites]

theorem encodeWrites_memByte_ne {s : State} {a : Nat} (hc : s.config.check = none)
    (h : (encodeWrites s).memByte a ≠ s.memByte a) :
    (0x04000 ≤ a ∧ a < 0x05000) ∨ (0x05000 ≤ a ∧ a < 0x06000) := by
  rw [encodeWrites_memByte] at h
  have hecc : (packWrites s).config.check = none := by rw [(packWrites_sameOperands s).config, hc]
  by_cases hpack : (packWrites s).memByte a = s.memByte a
  · exact .inr (eccgenWrites_memByte_ne hecc (hpack ▸ h))
  · exact .inl (packWrites_memByte_ne hc hpack)

/-- Only PACK, RSENC, ECCGEN and ENCODE write the buffers, the first into DBUF, the next two into CWBUF, ENCODE into
both (30_encoding.md R104). -/
theorem commandWrites_memByte_ne {i : Instr} {s : State} {a : Nat} (hc : commandCheck i s = none)
    (h : (commandWrites i s).memByte a ≠ s.memByte a) :
    (0x04000 ≤ a ∧ a < 0x05000 ∧ i ∈ [Instr.pack, .encode]) ∨
    (0x05000 ≤ a ∧ a < 0x06000 ∧ i ∈ [Instr.rsenc, .eccgen, .encode]) := by
  cases i with
  | pack => simpa using packWrites_memByte_ne (check_of_packCheck hc) h
  | rsenc => simpa using rsencWrites_memByte_ne hc h
  | eccgen => simpa using eccgenWrites_memByte_ne (check_of_eccgenCheck hc) h
  | encode => simpa using encodeWrites_memByte_ne (check_of_packCheck hc) h
  | _ => exact absurd rfl h

/-- Below the GRID a byte that differs is a byte of the buffers: registers are not seen, ROM is constant. -/
theorem memByte_ne_of_byteAt_ne {s t : State} {a : Nat} (ha : a < 0x10000) (h : t.byteAt a ≠ s.byteAt a) :
    t.memByte a ≠ s.memByte a := by
  cases hr : regionOf a with
  | buffer => simpa only [State.byteAt, hr] using h
  | grid => exact absurd (regionOf_grid hr).1 (by omega)
  | csr | rom | unmapped => simp [State.byteAt, hr] at h

/-- Settles O8: an error completion changes none of these, and neither does the completion after the command's
writes, which are given register by register above. -/
theorem commandsWriteOnlyWhatTheMapSays : Obligations.CommandsWriteOnlyWhatTheMapSays := by
  intro i s t hexec
  obtain ⟨e, -, rfl⟩ | ⟨hc, rfl⟩ := exec_cases hexec
  · simp
  · exact ⟨commandWrites_gfres i s, commandWrites_packResults i s, commandWrites_ncw i s,
      commandWrites_maskResults i s, commandWrites_score i s, commandWrites_stage i s, commandWrites_res i s,
      commandWrites_mod i s, fun a ha h => commandWrites_memByte_ne hc (memByte_ne_of_byteAt_ne ha h)⟩

end Sys2Proof.Machine
end

section
/-!
PROOFS. GF(256): the tables are a bijection between the exponents 0..254 and the nonzero bytes, so every nonzero
byte is a power of α, products add exponents, and the field laws follow.
-/

namespace Sys2Proof.Machine

/-! ## The tables (40_gf_rs.md R131) -/

/-- A power of α times α, as a byte: a shift, reduced by `GF_POLY` where bit 7 was set (40_gf_rs.md R131). -/
def timesAlphaByte (b : Byte) : Byte := (b <<< 1) ^^^ (if b.getLsbD 7 then BitVec.ofNat 8 Config.gfPoly else 0#8)

theorem logRom_expRom : ∀ i < 255, (logRom (expRom i).toNat).toNat = i := by
  have hprinted : ∀ i < 255, (printedLog (printedExp i).toNat).toNat = i := by decide +kernel
  intro i hi
  rw [expRom_eq_printed i (by omega), logRom_eq_printed _ (printedExp i).isLt, hprinted i hi]

theorem expRom_logRom {b : Byte} (hb : b ≠ 0#8) :
    (logRom b.toNat).toNat < 255 ∧ expRom (logRom b.toNat).toNat = b := by
  have hprinted : ∀ b : Byte, b ≠ 0#8 →
      (printedLog b.toNat).toNat < 255 ∧ printedExp (printedLog b.toNat).toNat = b := by decide +kernel
  obtain ⟨hlt, hexp⟩ := hprinted b hb
  rw [logRom_eq_printed _ b.isLt]
  exact ⟨hlt, by rw [expRom_eq_printed _ (by omega), hexp]⟩

theorem expRom_ne_zero : ∀ i < 255, expRom i ≠ 0#8 := by
  have hprinted : ∀ i < 255, printedExp i ≠ 0#8 := by decide +kernel
  intro i hi
  rw [expRom_eq_printed i (by omega)]
  exact hprinted i hi

theorem expRom_inj {i j : Nat} (hi : i < 255) (hj : j < 255) (h : expRom i = expRom j) : i = j := by
  rw [← logRom_expRom i hi, h, logRom_expRom j hj]

/-- The next power of α, the exponents taken modulo 255. -/
theorem expRom_succ : ∀ i < 255, expRom ((i + 1) % 255) = timesAlphaByte (expRom i) := by
  have hprinted : ∀ i < 255, printedExp ((i + 1) % 255) = timesAlphaByte (printedExp i) := by decide +kernel
  intro i hi
  rw [expRom_eq_printed i (by omega), expRom_eq_printed _ (by omega), hprinted i hi]

/-- As numbers: the shift has nine bits, and `GF_POLY` takes the ninth away. -/
theorem timesAlphaByte_toNat : ∀ b : Byte, (timesAlphaByte b).toNat =
    (b.toNat <<< 1) ^^^ (if b.getLsbD 7 then Config.gfPoly else 0) := by decide +kernel

theorem timesAlphaByte_xor (b c : Byte) : timesAlphaByte (b ^^^ c) = timesAlphaByte b ^^^ timesAlphaByte c := by
  simp only [timesAlphaByte, BitVec.shiftLeft_xor_distrib, BitVec.getLsbD_xor]
  have hreduce : ∀ (x y : Bool) (p : Byte), (if (x ^^ y) = true then p else 0#8) =
      (if x = true then p else 0#8) ^^^ (if y = true then p else 0#8) := by
    intro x y p
    cases x <;> cases y <;> simp
  rw [hreduce]
  ac_rfl

/-- Settles O14: the recurrence is that of `expRom_succ`, and EXP and LOG undo each other on the exponents below 255
and the nonzero bytes. -/
theorem fieldTablesFollowThePolynomial : Obligations.FieldTablesFollowThePolynomial := by
  refine ⟨rfl, fun i hi => ?_, logRom_expRom, fun b hb => ?_, fun i hi j hj => expRom_inj hi hj, expRom_ne_zero,
    rfl, rfl⟩
  · have hsucc := expRom_succ i (by omega)
    rw [Nat.mod_eq_of_lt (by omega)] at hsucc
    rw [hsucc, timesAlphaByte_toNat]
  · obtain ⟨hlt, hexp⟩ := expRom_logRom hb
    exact ⟨_, hlt, hexp⟩

/-! ## The product adds exponents (40_gf_rs.md R132) -/

@[simp] theorem gfmul_zero_left (b : Byte) : gfmul 0#8 b = 0#8 := by simp [gfmul, Params.gfmul]

@[simp] theorem gfmul_zero_right (a : Byte) : gfmul a 0#8 = 0#8 := by simp [gfmul, Params.gfmul]

theorem gfmul_eq (a b : Byte) : gfmul a b =
    if a = 0#8 ∨ b = 0#8 then 0#8 else expRom (((logRom a.toNat).toNat + (logRom b.toNat).toNat) % 255) := rfl

/-- A byte is zero or a power of α. -/
theorem eq_zero_or_expRom (a : Byte) : a = 0#8 ∨ ∃ i, a = expRom (i % 255) := by
  by_cases ha : a = 0#8
  · exact .inl ha
  · obtain ⟨hlt, hexp⟩ := expRom_logRom ha
    exact .inr ⟨_, by rw [Nat.mod_eq_of_lt hlt, hexp]⟩

theorem expRom_mod_ne_zero (i : Nat) : expRom (i % 255) ≠ 0#8 := expRom_ne_zero _ (Nat.mod_lt _ (by decide))

@[simp] theorem gfmul_expRom (i j : Nat) : gfmul (expRom (i % 255)) (expRom (j % 255)) = expRom ((i + j) % 255) := by
  have hnz : ¬ (expRom (i % 255) = 0#8 ∨ expRom (j % 255) = 0#8) :=
    not_or.mpr ⟨expRom_mod_ne_zero i, expRom_mod_ne_zero j⟩
  rw [gfmul_eq, if_neg hnz, logRom_expRom _ (Nat.mod_lt _ (by decide)), logRom_expRom _ (Nat.mod_lt _ (by decide)),
    ← Nat.add_mod]

/-! ## The field laws (40_gf_rs.md R143) -/

theorem gfmul_comm (a b : Byte) : gfmul a b = gfmul b a := by
  simp only [gfmul_eq, Or.comm, Nat.add_comm]

theorem gfmul_assoc (a b c : Byte) : gfmul (gfmul a b) c = gfmul a (gfmul b c) := by
  obtain rfl | ⟨i, rfl⟩ := eq_zero_or_expRom a
  · simp
  obtain rfl | ⟨j, rfl⟩ := eq_zero_or_expRom b
  · simp
  obtain rfl | ⟨k, rfl⟩ := eq_zero_or_expRom c
  · simp
  simp only [gfmul_expRom, Nat.add_assoc]

@[simp] theorem gfmul_one (a : Byte) : gfmul a 0x01#8 = a := by
  obtain rfl | ⟨i, rfl⟩ := eq_zero_or_expRom a
  · exact gfmul_zero_left _
  · exact gfmul_expRom i 0

/-- There are no zero divisors: a product of powers of α is a power of α. -/
theorem gfmul_eq_zero_iff (a b : Byte) : gfmul a b = 0#8 ↔ a = 0#8 ∨ b = 0#8 := by
  obtain rfl | ⟨i, rfl⟩ := eq_zero_or_expRom a
  · simp
  obtain rfl | ⟨j, rfl⟩ := eq_zero_or_expRom b
  · simp
  simp only [gfmul_expRom, expRom_mod_ne_zero, or_self]

/-- The inverse of α^i is α^(255 − i). -/
theorem gfmul_inverse {a : Byte} (ha : a ≠ 0#8) :
    gfmul a (expRom ((255 - (logRom a.toNat).toNat) % 255)) = 0x01#8 := by
  obtain ⟨hlt, hexp⟩ := expRom_logRom ha
  have hprod := gfmul_expRom (logRom a.toNat).toNat (255 - (logRom a.toNat).toNat)
  rw [Nat.mod_eq_of_lt hlt, hexp, Nat.add_sub_cancel' hlt.le] at hprod
  exact hprod

/-- A factor α is one shift with its reduction. -/
theorem gfmul_alpha (b : Byte) : gfmul 0x02#8 b = timesAlphaByte b := by
  obtain rfl | ⟨i, rfl⟩ := eq_zero_or_expRom b
  · rfl
  · calc gfmul 0x02#8 (expRom (i % 255)) = expRom ((1 + i) % 255) := gfmul_expRom 1 i
      _ = expRom ((i % 255 + 1) % 255) := by rw [Nat.add_comm, Nat.mod_add_mod]
      _ = timesAlphaByte (expRom (i % 255)) := expRom_succ _ (Nat.mod_lt _ (by decide))

/-- A factor α^i is i shifts with their reductions. -/
theorem gfmul_expRom_left (i : Nat) (b : Byte) : gfmul (expRom (i % 255)) b = timesAlphaByte^[i] b := by
  induction i with
  | zero => rw [gfmul_comm]; exact gfmul_one b
  | succ i ih =>
    have hpow : expRom ((i + 1) % 255) = gfmul 0x02#8 (expRom (i % 255)) := by
      rw [Nat.add_comm]; exact (gfmul_expRom 1 i).symm
    rw [hpow, gfmul_assoc, gfmul_alpha, ih, Function.iterate_succ_apply']

/-- The product distributes over addition, since one shift with its reduction does. -/
theorem gfmul_xor (a b c : Byte) : gfmul a (b ^^^ c) = gfmul a b ^^^ gfmul a c := by
  obtain rfl | ⟨i, rfl⟩ := eq_zero_or_expRom a
  · simp
  · simp only [gfmul_expRom_left]
    exact Function.Semiconj₂.iterate (op := (· ^^^ ·)) timesAlphaByte_xor i b c

theorem xor_gfmul (a b c : Byte) : gfmul (a ^^^ b) c = gfmul a c ^^^ gfmul b c := by
  simp only [gfmul_comm _ c, gfmul_xor]

/-- Settles O15: the laws above, one by one. -/
theorem gfmulIsTheFieldMultiplication : Obligations.GfmulIsTheFieldMultiplication := fun a b c =>
  ⟨gfmul_comm a b, gfmul_assoc a b c, gfmul_xor a b c, gfmul_one a, gfmul_zero_right a, gfmul_inverse,
    gfmul_alpha b⟩

/-- Settles O16: the two operands are the low bytes of ARG0 and ARG1, and GFMUL raises no error. -/
theorem gfmulWritesTheProduct : Obligations.GfmulWritesTheProduct := by
  intro s a b ha hb
  obtain rfl : a = s.gfA := BitVec.eq_of_toNat_eq (by simp [ha, State.gfA])
  obtain rfl : b = s.gfB := BitVec.eq_of_toNat_eq (by simp [hb, State.gfB])
  exact exec_gfmul s

end Sys2Proof.Machine
end

section
/-!
PROOFS. Reed–Solomon: `polyEval` is linear and a further coefficient is Horner's step, so the generators vanish
exactly at their roots and the data followed by its parity vanishes there too; RSENC's checks and writes.
-/

namespace Sys2Proof.Machine

/-! ## Values of polynomials

`(gfmul x)^[k]` stands for the factor x^k. -/

theorem iterate_gfmul_xor (x : Byte) (k : Nat) (a b : Byte) :
    (gfmul x)^[k] (a ^^^ b) = (gfmul x)^[k] a ^^^ (gfmul x)^[k] b :=
  Function.Semiconj₂.iterate (op := (· ^^^ ·)) (gfmul_xor x) k a b

theorem iterate_gfmul_gfmul (x a : Byte) (k : Nat) (b : Byte) :
    (gfmul x)^[k] (gfmul a b) = gfmul a ((gfmul x)^[k] b) :=
  Function.Commute.iterate_left (f := gfmul x) (g := gfmul a)
    (fun b => by rw [← gfmul_assoc, gfmul_comm x, gfmul_assoc]) k b

@[simp] theorem polyEval_nil (x : Byte) : polyEval [] x = 0#8 := rfl

/-- Horner's step. -/
theorem polyEval_concat (l : List Byte) (c x : Byte) : polyEval (l ++ [c]) x = gfmul (polyEval l x) x ^^^ c := by
  simp [polyEval]

@[simp] theorem polyEval_singleton (c x : Byte) : polyEval [c] x = c := by simp [polyEval]

/-- The coefficients of `l` before those of `m` count by x^|m| more. -/
theorem polyEval_append (l m : List Byte) (x : Byte) :
    polyEval (l ++ m) x = (gfmul x)^[m.length] (polyEval l x) ^^^ polyEval m x := by
  induction m using List.reverseRecOn with
  | nil => simp
  | append_singleton m c ih =>
    rw [← List.append_assoc, polyEval_concat, polyEval_concat, ih, xor_gfmul, gfmul_comm _ x, List.length_append,
      List.length_singleton, Function.iterate_succ_apply', BitVec.xor_assoc]

theorem polyEval_cons (c : Byte) (m : List Byte) (x : Byte) :
    polyEval (c :: m) x = (gfmul x)^[m.length] c ^^^ polyEval m x := by
  rw [← List.singleton_append, polyEval_append, polyEval_singleton]

theorem polyEval_cons_zero (m : List Byte) (x : Byte) : polyEval (0#8 :: m) x = polyEval m x := by simp [polyEval]

theorem polyEval_replicate_zero (n : Nat) (x : Byte) : polyEval (List.replicate n 0#8) x = 0#8 := by
  induction n with
  | zero => rfl
  | succ n ih => rw [List.replicate_succ, polyEval_cons_zero, ih]

/-- The value of a sum of polynomials is the sum of the values. -/
theorem polyEval_zipWith_xor {l m : List Byte} (h : l.length = m.length) (x : Byte) :
    polyEval (List.zipWith (fun a b => a ^^^ b) l m) x = polyEval l x ^^^ polyEval m x := by
  induction l generalizing m with
  | nil => cases m <;> simp_all
  | cons a l ih =>
    obtain ⟨b, m, rfl⟩ := List.exists_cons_of_length_eq_add_one h.symm
    have hlen : l.length = m.length := by simpa using h
    simp only [List.zipWith_cons_cons, polyEval_cons, List.length_zipWith, ih hlen, hlen, Nat.min_self,
      iterate_gfmul_xor]
    ac_rfl

/-- The value of a multiple is the multiple of the value. -/
theorem polyEval_map_gfmul (r : Byte) (l : List Byte) (x : Byte) :
    polyEval (l.map (gfmul r)) x = gfmul r (polyEval l x) := by
  induction l with
  | nil => simp
  | cons a l ih => rw [List.map_cons, polyEval_cons, polyEval_cons, ih, List.length_map, iterate_gfmul_gfmul, gfmul_xor]

/-! ## The generator polynomials (40_gf_rs.md R134) -/

/-- One more root r multiplies every value by x − r. -/
theorem polyEval_timesRoot (g : List Byte) (r x : Byte) :
    polyEval (Config.params.timesRoot g r) x = gfmul (x ^^^ r) (polyEval g x) := by
  have hmul : polyEval (0#8 :: g.map (gfmul r)) x = gfmul r (polyEval g x) := by
    rw [polyEval_cons_zero, polyEval_map_gfmul]
  calc polyEval (Config.params.timesRoot g r) x
      = polyEval (g ++ [0#8]) x ^^^ polyEval (0#8 :: g.map (gfmul r)) x := polyEval_zipWith_xor (by simp) x
    _ = gfmul x (polyEval g x) ^^^ gfmul r (polyEval g x) := by
      rw [polyEval_concat, BitVec.xor_zero, gfmul_comm _ x, hmul]
    _ = gfmul (x ^^^ r) (polyEval g x) := (xor_gfmul _ _ _).symm

/-- Among the powers of α the roots of g_n are the first n. -/
theorem polyEval_genPoly_eq_zero_iff {n i : Nat} (hn : n ≤ 255) (hi : i < 255) :
    polyEval (Config.params.genPoly n) (expRom i) = 0#8 ↔ i < n := by
  induction n with
  | zero => simp [Params.genPoly]
  | succ n ih =>
    have hroot : expRom i ^^^ Config.params.exp n = 0#8 ↔ i = n := by
      rw [BitVec.xor_eq_zero_iff]
      exact ⟨expRom_inj hi (by omega), fun h => by rw [h, expRom]⟩
    rw [Params.genPoly, polyEval_timesRoot, gfmul_eq_zero_iff, hroot, ih (by omega)]
    omega

/-- The generators are monic. -/
theorem genPoly_eq_cons (n : Nat) : Config.params.genPoly n = 0x01#8 :: genTail n := by
  have hhead : (Config.params.genPoly n).head? = some 0x01#8 := by
    induction n with
    | zero => rfl
    | succ n ih =>
      obtain ⟨tail, htail⟩ := List.head?_eq_some_iff.mp ih
      simp [Params.genPoly, Params.timesRoot, htail]
  obtain ⟨tail, htail⟩ := List.head?_eq_some_iff.mp hhead
  simp [genTail, htail]

/-- The row GEN[n] is the polynomial g_n (20_memory.md R79). -/
theorem genRom_row {n : Nat} (h1 : 1 ≤ n) (h30 : n ≤ 30) :
    (List.range (n + 1)).map (genRom n) = Config.params.genPoly n := by
  refine List.ext_getElem (by simp) fun i hi _ => ?_
  have hin : i ≤ n := by simpa [Nat.lt_succ_iff] using hi
  have hheld : ¬ (n = 0 ∨ Config.params.genMax < n ∨ n < i) := by
    have hmax : Config.params.genMax = 30 := rfl
    omega
  simp only [List.getElem_map, List.getElem_range, genRom, Params.gen, if_neg hheld]
  exact List.getD_eq_getElem _ _ (by simpa using hi)

/-- Settles O17: the row of GEN is monic, and its roots are those of `polyEval_genPoly_eq_zero_iff`. -/
theorem generatorsHaveTheirRoots : Obligations.GeneratorsHaveTheirRoots := by
  intro n h1 h30
  have hrow := genRom_row h1 h30
  refine ⟨?_, fun i hi => ?_⟩
  · rw [List.range_succ_eq_map, List.map_cons, genPoly_eq_cons] at hrow
    exact (List.cons.inj hrow).1
  · rw [hrow]
    exact polyEval_genPoly_eq_zero_iff (by omega) hi

/-! ## The remainder (40_gf_rs.md R137) -/

/-- At a root of g_n the factor x^n is the value of the other coefficients. -/
theorem iterate_gfmul_eq_polyEval_genTail {n : Nat} {x : Byte} (hx : polyEval (Config.params.genPoly n) x = 0#8)
    (f : Byte) : (gfmul x)^[n] f = gfmul f (polyEval (genTail n) x) := by
  rw [genPoly_eq_cons, polyEval_cons, genTail_length, BitVec.xor_eq_zero_iff] at hx
  calc (gfmul x)^[n] f = (gfmul x)^[n] (gfmul f 0x01#8) := by rw [gfmul_one]
    _ = gfmul f (polyEval (genTail n) x) := by rw [iterate_gfmul_gfmul, hx]

/-- One data byte into the remainder: at a root of g_n the value is multiplied by x and d · x^n added. -/
theorem polyEval_rsRound {n : Nat} {x : Byte} (hx : polyEval (Config.params.genPoly n) x = 0#8) {rem : List Byte}
    (hlen : rem.length = n) (d : Byte) :
    polyEval (rsRound (genTail n) rem d) x = gfmul x (polyEval rem x) ^^^ (gfmul x)^[n] d := by
  cases rem with
  | nil =>
    subst hlen
    simp [Params.genPoly] at hx
  | cons r rem =>
    have hround : rsRound (genTail n) (r :: rem) d =
        List.zipWith (fun a b => a ^^^ b) (rem ++ [0#8]) ((genTail n).map (gfmul (d ^^^ r))) := by
      simp [rsRound, List.zipWith_map_right, gfmul_comm]
    subst hlen
    rw [hround, polyEval_zipWith_xor (by simp), polyEval_map_gfmul, ← iterate_gfmul_eq_polyEval_genTail hx,
      polyEval_concat, polyEval_cons, gfmul_xor, iterate_gfmul_xor, List.length_cons, Function.iterate_succ_apply',
      Function.iterate_succ_apply', BitVec.xor_zero, gfmul_comm _ x]
    ac_rfl

/-- The data's value, times x^n, is the remainder's value at every root of g_n. -/
theorem polyEval_rsRemainder {n : Nat} {x : Byte} (hx : polyEval (Config.params.genPoly n) x = 0#8) (data : List Byte) :
    polyEval (rsRemainder data n) x = (gfmul x)^[n] (polyEval data x) := by
  induction data using List.reverseRecOn with
  | nil =>
    rw [polyEval_nil, Function.iterate_fixed (gfmul_zero_right x)]
    exact polyEval_replicate_zero n x
  | append_singleton data d ih =>
    have hround : rsRemainder (data ++ [d]) n = rsRound (genTail n) (rsRemainder data n) d := by
      simp [rsRemainder]
    rw [hround, polyEval_rsRound hx (rsRemainder_length data n), ih, polyEval_concat, iterate_gfmul_xor,
      gfmul_comm _ x, ← Function.iterate_succ_apply' (gfmul x), Function.iterate_succ_apply]

/-- Settles O18: data and parity have the same value at a root, so their sum vanishes. -/
theorem parityMakesACodeword : Obligations.ParityMakesACodeword := by
  intro data n h1 h30
  refine ⟨rsRemainder_length data n, fun i hi => ?_⟩
  have hroot : polyEval (Config.params.genPoly n) (expRom i) = 0#8 :=
    (polyEval_genPoly_eq_zero_iff (by omega) (by omega)).mpr hi
  rw [polyEval_append, rsRemainder_length, polyEval_rsRemainder hroot, BitVec.xor_self]

/-! ## Errors of a command -/

/-- The error a command's checks raise is the one it ends in. -/
theorem endsInError_of_check {i : Instr} {s : State} {e : CmdError} (h : commandCheck i s = some e) :
    endsInError i s e.code.toNat (errorOpcode i).toNat := by
  simp only [endsInError, exec_eq, h, BitVec.ofNat_toNat, BitVec.setWidth_eq]
  rfl

/-- A command whose checks begin with checkConfig ends in checkConfig's errors. -/
theorem configErrorsFirst_of_check {i : Instr} {s : State}
    (h : ∀ e, s.config.check = some e → commandCheck i s = some e) :
    configErrorsFirst i s (errorOpcode i).toNat :=
  ⟨fun hv => endsInError_of_check (h _ ((check_eq_unsupportedVersion_iff _).mpr hv)),
    fun hv he => endsInError_of_check (h _ ((check_eq_invalidEccLevel_iff _).mpr ⟨hv, he⟩))⟩

/-! ## RSENC (40_gf_rs.md R136) -/

theorem rsencCheck_eq (s : State) : rsencCheck s =
    if s.arg2.toNat < 1 ∨ 30 < s.arg2.toNat ∨ 4096 < s.arg0.toNat + s.arg1.toNat ∨
      4096 < s.arg3.toNat + s.arg2.toNat then some .badArgument else none := by
  have hmax : Config.params.genMax = 30 := rfl
  simp only [rsencCheck, hmax, ite_or]

/-- Settles O19: every check raises the same error, and RSENC stores the remainder at CWBUF[d]. -/
theorem rsencWritesTheRemainder : Obligations.RsencWritesTheRemainder := by
  intro s src k n d
  refine ⟨fun hbad => ?_, fun h1 h30 hsrc hdst => ?_⟩
  · exact endsInError_of_check (i := .rsenc) ((rsencCheck_eq s).trans (if_pos hbad))
  · have hcheck : commandCheck .rsenc s = none := (rsencCheck_eq s).trans (if_neg (by omega))
    have hlen : (rsRemainder (rsencData s) n).length = n := rsRemainder_length _ _
    have hframe := sameBytesOutside_store s (cwbufBase + d) (rsRemainder (rsencData s) n)
    rw [hlen] at hframe
    refine ⟨completeOk (rsencWrites s), by rw [exec_eq, hcheck]; rfl, rfl, fun i hi => ?_, hframe⟩
    have hi' : i < (rsRemainder (rsencData s) n).length := by omega
    calc (completeOk (rsencWrites s)).cwbuf (d + i)
        = (s.store (cwbufBase + d) (rsRemainder (rsencData s) n)).memByte (cwbufBase + d + i) := by
          rw [Nat.add_assoc]; rfl
      _ = (rsRemainder (rsencData s) n).getD i 0#8 := by
          rw [memByte_store_inside _ _ _ _ hi', List.getD_eq_getElem _ _ hi']

end Sys2Proof.Machine
end

section
/-!
PROOFS. Interleaving is the columns of the blocks one after the other, and ECCGEN's final sequence: its length, its
writes, and what it is for a symbol of one block.
-/

namespace Sys2Proof.Machine

/-! ## Columns of blocks (40_gf_rs.md R139) -/

/-- Column j: byte j of every block that has one, in block order. -/
def column (lists : List (List Byte)) (j : Nat) : List Byte := lists.filterMap fun l => l[j]?

/-- The first `n` columns, one after the other. -/
def columnsBelow (lists : List (List Byte)) (n : Nat) : List Byte := (List.range n).flatMap (column lists)

/-- Interleaving takes all columns: as many as the longest block has bytes. -/
theorem interleave_eq_columnsBelow (lists : List (List Byte)) :
    ∃ n, interleave lists = columnsBelow lists n ∧ ∀ l ∈ lists, l.length ≤ n :=
  ⟨_, rfl, fun _ hl => (le_foldl_max _ 0).2 _ (List.mem_map_of_mem hl)⟩

@[simp] theorem column_singleton (l : List Byte) (j : Nat) : column [l] j = l[j]?.toList := by
  cases h : l[j]? <;> simp [column, h]

theorem column_cons (l : List Byte) (lists : List (List Byte)) (j : Nat) :
    column (l :: lists) j = column [l] j ++ column lists j :=
  List.filterMap_append (l := [l])

theorem columnsBelow_succ (lists : List (List Byte)) (n : Nat) :
    columnsBelow lists (n + 1) = columnsBelow lists n ++ column lists n := by
  simp [columnsBelow, List.range_succ]

theorem columnsBelow_prefix (lists : List (List Byte)) {m n : Nat} (h : m ≤ n) :
    columnsBelow lists m <+: columnsBelow lists n := by
  induction n, h using Nat.le_induction with
  | base => exact List.prefix_rfl
  | succ n _ ih => exact ih.trans (columnsBelow_succ lists n ▸ List.prefix_append _ _)

/-- The columns of one block are its bytes. -/
theorem columnsBelow_singleton (l : List Byte) (n : Nat) : columnsBelow [l] n = l.take n := by
  induction n with
  | zero => rfl
  | succ n ih => rw [columnsBelow_succ, ih, column_singleton, List.take_add_one]

/-- The first n columns hold the first n bytes of every block, in another order. -/
theorem columnsBelow_perm (lists : List (List Byte)) (n : Nat) :
    (columnsBelow lists n).Perm (lists.map (List.take n)).flatten := by
  induction lists with
  | nil => simp [columnsBelow, column]
  | cons l lists ih =>
    have hcols : column (l :: lists) = fun j => column [l] j ++ column lists j := funext (column_cons l lists)
    calc columnsBelow (l :: lists) n
      _ = (List.range n).flatMap fun j => column [l] j ++ column lists j := by rw [columnsBelow, hcols]
      _ |>.Perm (columnsBelow [l] n ++ columnsBelow lists n) := (List.flatMap_append_perm _ _ _).symm
      _ |>.Perm (l.take n ++ (lists.map (List.take n)).flatten) := by
        rw [columnsBelow_singleton]; exact ih.append_left _

theorem columnsBelow_length (lists : List (List Byte)) (n : Nat) :
    (columnsBelow lists n).length = (lists.map fun l => min l.length n).sum := by
  rw [(columnsBelow_perm lists n).length_eq, List.length_flatten, List.map_map]
  simp [Function.comp_def, Nat.min_comm]

/-- In its column the byte of block b comes after those of the blocks before b. -/
theorem getElem?_column {lists : List (List Byte)} {b j : Nat} (hb : b < lists.length) (hj : j < lists[b].length) :
    (column lists j)[(lists.take b).countP fun l => decide (j < l.length)]? = some lists[b][j] := by
  induction lists generalizing b with
  | nil => simp at hb
  | cons l lists ih =>
    cases b with
    | zero =>
      have hj' : j < l.length := hj
      rw [column_cons, column_singleton]
      simp [hj']
    | succ b =>
      have hrest := ih (b := b) (by simpa using hb) hj
      rw [column_cons, column_singleton]
      by_cases hl : j < l.length <;> simpa [hl] using hrest

/-- Settles O20: the first clause is `columnsBelow_perm` for all columns; byte j of a block stands in column j, behind
the columns below j. -/
theorem interleaveTakesTurns : Obligations.InterleaveTakesTurns := by
  refine ⟨fun lists => ?_, fun lists b j hb hj => ?_⟩
  · obtain ⟨n, hn, hall⟩ := interleave_eq_columnsBelow lists
    have htake : lists.map (List.take n) = lists :=
      (List.map_congr_left fun l hl => List.take_of_length_le (hall l hl)).trans (List.map_id lists)
    have hperm := columnsBelow_perm lists n
    rwa [htake, ← hn] at hperm
  · obtain ⟨n, hn, hall⟩ := interleave_eq_columnsBelow lists
    rw [List.getD_eq_getElem _ _ hb] at hj ⊢
    have hjn : j + 1 ≤ n := lt_of_lt_of_le hj (hall _ (List.getElem_mem hb))
    have hcol := getElem?_column hb hj
    obtain ⟨rest, hrest⟩ := columnsBelow_prefix lists hjn
    obtain ⟨hlt, -⟩ := List.getElem?_eq_some_iff.mp hcol
    rw [hn, ← hrest, columnsBelow_succ, List.append_assoc, ← columnsBelow_length,
      List.getElem?_append_right (Nat.le_add_right _ _), Nat.add_sub_cancel_left, List.getElem?_append_left hlt, hcol,
      List.getElem?_eq_getElem hj]

/-- Interleaving one block leaves it as it is. -/
@[simp] theorem interleave_singleton (l : List Byte) : interleave [l] = l := by
  obtain ⟨n, hn, hall⟩ := interleave_eq_columnsBelow [l]
  rw [hn, columnsBelow_singleton, List.take_of_length_le (hall l (by simp))]

/-! ## The final sequence (40_gf_rs.md R138, R139) -/

/-- Where the data fill their blocks, the final sequence has as many codewords as the blocks. -/
theorem finalSequence_splitBlocks_length (shapes : List (Nat × Nat)) (l : List Byte)
    (hshape : ∀ p ∈ shapes, p.2 ≤ p.1) (hdata : (shapes.map Prod.snd).sum = l.length) :
    (finalSequence (splitBlocks shapes l)).length = (shapes.map Prod.fst).sum := by
  simp only [finalSequence, List.length_append, interleave_length, List.map_map]
  induction shapes generalizing l with
  | nil => simp [splitBlocks]
  | cons p shapes ih =>
    obtain ⟨total, data⟩ := p
    simp only [List.map_cons, List.sum_cons] at hdata
    have h0 : data ≤ total := hshape (total, data) (by simp)
    have hrest := ih (l.drop data) (fun q hq => hshape q (by simp [hq])) (by rw [List.length_drop]; omega)
    simp only [splitBlocks, List.map_cons, List.sum_cons, Function.comp_apply, List.length_take,
      rsRemainder_length]
    omega

/-- The blocks of the groups have as many data codewords as the groups say. -/
theorem blockShapes_data_sum (gs : List Group) :
    ((blockShapes gs).map Prod.snd).sum = (gs.map fun g => g.count * g.data).sum := by
  simp [blockShapes, List.flatMap, List.sum_flatten, Function.comp_def]

@[simp] theorem eccData_length (s : State) : (eccData s).length = s.config.nData := by simp [eccData]

/-- A legal symbol's final sequence has its number of codewords (20_memory.md R84). -/
theorem eccSequence_length {s : State} (h : s.config.check = none) : (eccSequence s).length = s.config.nTotal := by
  obtain ⟨-, hgs⟩ := groups_of_check h
  have hshape : ∀ p ∈ blockShapes s.config.groups, p.2 ≤ p.1 := by
    simp only [blockShapes, List.mem_flatMap, List.mem_replicate]
    rintro p ⟨g, hg, -, rfl⟩
    exact (hgs g hg).le
  have hdata : ((blockShapes s.config.groups).map Prod.snd).sum = (eccData s).length := by
    rw [blockShapes_data_sum, eccData_length, SymbolConfig.nData]
  exact (finalSequence_splitBlocks_length _ _ hshape hdata).trans (blockShapes_sum _)

/-! ## ECCGEN (40_gf_rs.md R140, R141) -/

theorem eccgenCheck_of_check {s : State} {e : CmdError} (h : s.config.check = some e) : eccgenCheck s = some e := by
  simp [eccgenCheck, h]

theorem eccgenCheck_of_legal {s : State} (h : s.configLegal) :
    eccgenCheck s = if s.stage.p = false then some .sequence else none := by
  simp [eccgenCheck, (check_eq_none_iff _).mpr h]

theorem exec_eccgen_ok {s : State} (h : s.configLegal) (hp : s.stage.p = true) :
    exec .eccgen s = .next (completeOk (eccgenWrites s)) := by
  rw [exec_eccgen, eccgenCheck_of_legal h, hp]
  rfl

/-- Codeword i as ECCGEN reads it: the last of a nibble-short symbol loses its low nibble. -/
theorem eccData_eq (s : State) : eccData s = (List.range s.config.nData).map fun i =>
    if s.config.nibbleShort = true ∧ i = s.config.nData - 1 then s.dbuf i &&& 0xF0#8 else s.dbuf i := by
  simp [eccData]

theorem cwbuf_eccgenWrites {s : State} {i : Nat} (hi : i < (eccSequence s).length) :
    (completeOk (eccgenWrites s)).cwbuf i = (eccSequence s)[i] :=
  memByte_store_inside s cwbufBase _ i hi

/-- Settles O21: the checks one by one, then one store of the final sequence at CWBUF[0]. -/
theorem eccgenWritesTheFinalSequence : Obligations.EccgenWritesTheFinalSequence := by
  intro s
  refine ⟨configErrorsFirst_of_check fun e => eccgenCheck_of_check, fun hlegal hp => ?_, fun hlegal hp => ?_⟩
  · exact endsInError_of_check (i := .eccgen) ((eccgenCheck_of_legal hlegal).trans (if_pos hp))
  · have hcheck := (check_eq_none_iff _).mpr hlegal
    have hlen := eccSequence_length hcheck
    obtain ⟨hbound, -⟩ := groups_of_check hcheck
    have hframe := sameBytesOutside_store s cwbufBase (eccSequence s)
    rw [hlen] at hframe
    intro codewords out
    have hout : out = eccSequence s := by simp only [out, codewords, eccSequence, eccData_eq]
    rw [hout]
    refine ⟨completeOk (eccgenWrites s), exec_eccgen_ok hlegal hp, rfl, ?_, hlen, fun i hi => ?_, hframe⟩
    · exact (BitVec.toNat_ofNat _ _).trans (Nat.mod_eq_of_lt (by omega))
    · rw [← hlen] at hi
      rw [cwbuf_eccgenWrites hi, List.getD_eq_getElem _ _ hi]

/-! ## Symbols of one block -/

/-- The blocks of a legal CONFIG have at most 30 error words (20_memory.md R82, R83). -/
theorem groups_parity_le {c : SymbolConfig} (hv : c.versionOK = true) (he : c.eccOK = true) :
    ∀ g ∈ c.groups, g.total - g.data ≤ 30 := by
  have hver : 1 ≤ c.ver ∧ c.ver < 41 ∧ (c.micro = true → c.ver ≤ 4) := by
    rw [SymbolConfig.ver]
    obtain ⟨hm, hpos, hle⟩ | ⟨-, hpos, hle⟩ := (versionOK_iff c).mp hv
    · exact ⟨hpos, by omega, by simp [hm]⟩
    · exact ⟨hpos, by omega, fun _ => hle⟩
  obtain ⟨h1, h40, h4⟩ := hver
  cases hl : c.level with
  | none => simp [SymbolConfig.eccOK, hl] at he
  | some level =>
    have hmem : level ∈ legalEcc c.micro c.ver := by simpa [SymbolConfig.eccOK, hl] using he
    obtain ⟨-, -, hgs⟩ := groups_bounds c.micro c.ver h40 level hmem h4 h1
    simp only [SymbolConfig.groups, hl]
    exact fun g hg => (hgs g hg).2

/-- One block: its data, then its parity. -/
theorem eccSequence_of_one_block {s : State} {total data : Nat} (h : s.config.groups = [⟨1, total, data⟩]) :
    eccSequence s = eccData s ++ rsRemainder (eccData s) (total - data) := by
  have hdata : (eccData s).take data = eccData s := List.take_of_length_le (by simp [SymbolConfig.nData, h])
  simp [eccSequence, h, blockShapes, splitBlocks, finalSequence, hdata]

/-- Settles O22: with one block the final sequence is data then parity, so CWBUF holds a codeword by
`parityMakesACodeword`. -/
theorem oneBlockSymbolIsDataThenParity : Obligations.OneBlockSymbolIsDataThenParity := by
  intro s total data hlegal hp hgroups
  have hcheck := (check_eq_none_iff _).mpr hlegal
  have hlen := eccSequence_length hcheck
  have hnData : s.config.nData = data := by simp [SymbolConfig.nData, hgroups]
  have hnTotal : s.config.nTotal = total := by simp [SymbolConfig.nTotal, hgroups]
  have hseq := eccSequence_of_one_block hgroups
  obtain ⟨-, hlt⟩ := groups_of_check hcheck
  have hdt : data < total := hlt ⟨1, total, data⟩ (by simp [hgroups])
  have ⟨hv, he⟩ := hlegal
  have h30 : total - data ≤ 30 := groups_parity_le hv he ⟨1, total, data⟩ (by simp [hgroups])
  refine ⟨completeOk (eccgenWrites s), exec_eccgen_ok hlegal hp, fun i hi => ?_, fun i hi => ?_⟩
  · have hi' : i < (eccData s).length := by rw [eccData_length]; omega
    rw [cwbuf_eccgenWrites (by omega)]
    simp only [hseq]
    rw [List.getElem_append_left hi']
    simp only [eccData_eq, List.getElem_map, List.getElem_range, hnData]
  · have hrow : (List.range total).map (completeOk (eccgenWrites s)).cwbuf = eccSequence s := by
      refine List.ext_getElem (by simp [hlen, hnTotal]) fun k _ hk => ?_
      rw [List.getElem_map, List.getElem_range, cwbuf_eccgenWrites hk]
    obtain ⟨-, hzero⟩ := parityMakesACodeword (eccData s) (total - data) (by omega) h30
    rw [hrow, hseq]
    exact hzero i hi

end Sys2Proof.Machine
end

section
/-!
PROOFS. PACK's mode and its checks: what AUTO finds, the mode values by number, and the checks in their order.
-/

namespace Sys2Proof.Machine

/-! ## AUTO (41_packer.md R162) -/

theorem isDigit_iff (b : Byte) : isDigit b = true ↔ 0x30 ≤ b.toNat ∧ b.toNat ≤ 0x39 := by simp [isDigit]

/-- The digits are the first ten characters of the AlphaNumeric set (20_memory.md R88). -/
theorem isAlnum_of_isDigit {b : Byte} (h : isDigit b = true) : isAlnum b = true := by
  simp only [isAlnum, alnum_eq, isoAlnum, if_pos ((isDigit_iff b).mp h), Option.isSome_some]

theorem all_isAlnum_of_all_isDigit {payload : List Byte} (h : payload.all isDigit = true) :
    payload.all isAlnum = true :=
  List.all_eq_true.mpr fun b hb => isAlnum_of_isDigit (List.all_eq_true.mp h b hb)

theorem detectMode_eq_numeric_iff (payload : List Byte) :
    detectMode payload = .numeric ↔ payload.all isDigit = true := by
  rw [detectMode]
  split_ifs <;> simp_all

theorem detectMode_eq_byte_iff (payload : List Byte) :
    detectMode payload = .byte ↔ payload.all isAlnum = false := by
  rw [detectMode]
  split_ifs with hd ha
  · simp [all_isAlnum_of_all_isDigit hd]
  · simp [ha]
  · simp [ha]

theorem charsValid_detectMode (payload : List Byte) : charsValid (detectMode payload) payload = true := by
  rw [detectMode]
  split_ifs with hd ha
  · exact hd
  · exact ha
  · rfl

/-- No mode the payload is valid in comes before the one AUTO picks. -/
theorem detectMode_code_le {mode : Mode} {payload : List Byte} (h : charsValid mode payload = true) :
    (detectMode payload).code.toNat ≤ mode.code.toNat := by
  cases mode with
  | numeric => rw [(detectMode_eq_numeric_iff payload).mpr h]
  | alphanumeric =>
    have hne : detectMode payload ≠ .byte := by
      rw [ne_eq, detectMode_eq_byte_iff, Bool.not_eq_false]
      exact h
    cases hm : detectMode payload with
    | numeric | alphanumeric => decide
    | byte => exact absurd hm hne
  | byte => cases detectMode payload <;> decide

/-- Settles O24: the two scans of `detectMode`, with the digits among the AlphaNumeric characters. -/
theorem autoPicksTheTightestMode : Obligations.AutoPicksTheTightestMode := by
  intro payload
  refine ⟨?_, ?_, charsValid_detectMode payload, fun mode => detectMode_code_le⟩
  · rw [detectMode_eq_numeric_iff, List.all_eq_true]
    simp only [isDigit_iff]
  · rw [detectMode_eq_byte_iff, List.all_eq_false]
    simp only [isAlnum, Bool.not_eq_true, Option.isSome_eq_false_iff, Option.isNone_iff_eq_none]

/-! ## The mode values (41_packer.md R161, R163) -/

theorem namedMode_eq_some_iff (c : SymbolConfig) (mode : Mode) : c.namedMode = some mode ↔ c.mode = mode.code := by
  simp only [SymbolConfig.namedMode]
  generalize c.mode = m
  revert m
  cases mode <;> decide

theorem auto_eq_false_iff (c : SymbolConfig) : c.auto = false ↔ c.mode.toNat ≠ 7 := by
  simp only [SymbolConfig.auto]
  generalize c.mode = m
  revert m
  decide

/-- PACK refuses the Kanji value and the illegal ones. -/
theorem modeRefused_iff (c : SymbolConfig) :
    c.namedMode = none ∧ c.auto = false ↔ c.mode.toNat ∈ [3, 4, 5, 6] := by
  simp only [SymbolConfig.namedMode, SymbolConfig.auto]
  generalize c.mode = m
  revert m
  decide

theorem exists_code_of_mode_le {c : SymbolConfig} (h : c.mode.toNat ≤ 2) : ∃ mode : Mode, c.mode = mode.code := by
  have hcases : c.mode.toNat = 0 ∨ c.mode.toNat = 1 ∨ c.mode.toNat = 2 := by omega
  obtain h | h | h := hcases
  · exact ⟨.numeric, BitVec.eq_of_toNat_eq h⟩
  · exact ⟨.alphanumeric, BitVec.eq_of_toNat_eq h⟩
  · exact ⟨.byte, BitVec.eq_of_toNat_eq h⟩

theorem packMode_of_named {s : State} {mode : Mode} (h : s.config.mode = mode.code) : packMode s = mode := by
  simp only [packMode, (namedMode_eq_some_iff _ _).mpr h]

theorem packMode_of_auto {s : State} (h : s.config.mode = 7#3) : packMode s = detectMode (packPayload s) := by
  have hnone : s.config.namedMode = none := by simp [SymbolConfig.namedMode, h]
  simp only [packMode, hnone]

/-! ## The checks in their order (41_packer.md R160) -/

theorem packCheck_of_check {s : State} {e : CmdError} (h : s.config.check = some e) : packCheck s = some e := by
  simp [packCheck, h]

/-- PACK's checks after checkConfig's, by the numbers of MODE and PLEN. -/
theorem packCheck_of_legal {s : State} (h : s.configLegal) : packCheck s =
    if s.config.mode.toNat ∈ [3, 4, 5, 6] then some .invalidMode
    else if 8192 < s.plen.toNat then some .badArgument
    else if s.config.mode.toNat ≠ 7 ∧ charsValid (packMode s) (packPayload s) = false then some .invalidCharacter
    else (countBits s.config.micro s.config.ver (packMode s)).elim (some .invalidMode) fun cb =>
      if s.plen.toNat < 1 ∨ 2 ^ cb - 1 < s.plen.toNat then some .charCountRange
      else if s.config.capacity < (packSegment s).length then some .capacityExceeded
      else none := by
  simp only [packCheck, (check_eq_none_iff _).mpr h, ↓modeRefused_iff, auto_eq_false_iff, packCountBits]
  cases countBits s.config.micro s.config.ver (packMode s) <;> rfl

/-- Settles O25: each clause takes the checks before it as passed. -/
theorem packReportsItsFirstFailingCheck : Obligations.PackReportsItsFirstFailingCheck := by
  intro s m n cb
  have error {e : CmdError} (h : packCheck s = some e) : endsInError .pack s e.code.toNat 0x10 :=
    endsInError_of_check (i := .pack) h
  refine ⟨configErrorsFirst_of_check fun e => packCheck_of_check, fun hl hm => error (e := .invalidMode) ?_,
    fun hl hm hn => error (e := .badArgument) ?_, fun hl hm hn => ?_⟩
  · rw [packCheck_of_legal hl, if_pos hm]
  · rw [packCheck_of_legal hl, if_neg hm, if_pos hn]
  · have hsize := packCheck_of_legal hl
    rw [if_neg hm, if_neg (Nat.not_lt.mpr hn)] at hsize
    refine ⟨fun h7 hv => error (e := .invalidCharacter) ?_, fun hv => ?_⟩
    · rw [hsize, if_pos ⟨h7, hv⟩]
    · have hchars : ¬ (m ≠ 7 ∧ charsValid (packMode s) (packPayload s) = false) :=
        fun ⟨h7, hinv⟩ => by simp [hv h7] at hinv
      rw [if_neg hchars] at hsize
      refine ⟨fun hcb => error (e := .invalidMode) ?_, fun w hcb hn => error (e := .charCountRange) ?_,
        fun w hcb h1 hw hcap => error (e := .capacityExceeded) ?_⟩
      · exact hsize.trans (congrArg (Option.elim · _ _) hcb)
      · exact hsize.trans <| (congrArg (Option.elim · _ _) hcb).trans (if_pos hn)
      · exact hsize.trans <| (congrArg (Option.elim · _ _) hcb).trans <|
          (if_neg (by omega)).trans (if_pos hcap)

/-- A payload PACK accepts passes every check. -/
theorem packCheck_of_accepts {s : State} (h : packAccepts s) : packCheck s = none := by
  obtain ⟨hlegal, hmode, hplen, hvalid, cb, hcb, h1, hcount, hcap⟩ := h
  have hm : s.config.mode.toNat ∉ [3, 4, 5, 6] := by
    simp only [List.mem_cons, List.not_mem_nil, or_false]
    omega
  have hv : ¬ (s.config.mode.toNat ≠ 7 ∧ charsValid (packMode s) (packPayload s) = false) := by
    rintro ⟨h7, hinv⟩
    simp [hvalid (by omega)] at hinv
  rw [packCheck_of_legal hlegal, if_neg hm, if_neg (by omega), if_neg hv, hcb, Option.elim_some, if_neg (by omega),
    if_neg (by omega)]

end Sys2Proof.Machine
end

section
/-!
PROOFS. PACK's stream: the terminator, the alignment, the pad codewords and the final nibble fill the capacity
exactly, and DBUF holds the stream bit by bit.
-/

namespace Sys2Proof.Machine

/-! ## Terminator and padding (41_packer.md R173-R177) -/

/-- L is a whole number of bytes, or half a byte less (20_memory.md R84). -/
theorem capacity_mod (c : SymbolConfig) : c.capacity % 8 = 0 ∨ c.capacity % 8 = 4 := by
  rw [SymbolConfig.capacity]
  split <;> omega

/-- The pad codewords by value (41_packer.md R175). -/
theorem padCodeword_toNat (k : Nat) : (padCodeword k).toNat = if k % 2 = 0 then 0xEC else 0x11 := by
  simp only [padCodeword, Params.padCodeword]
  split <;> rfl

/-- The first `n` pad codewords. -/
def padBits (n : Nat) : List Bool := (List.range n).flatMap fun k => bits (if k % 2 = 0 then 0xEC else 0x11) 8

@[simp] theorem padBits_length (n : Nat) : (padBits n).length = 8 * n := by
  simp [padBits, List.length_flatMap, Nat.mul_comm]

theorem appendPads_eq (capacity : Nat) (l : List Bool) :
    appendPads capacity l = l ++ padBits ((capacity - l.length) / 8) := by
  simp only [appendPads, padBits, padCodeword_toNat]

/-- What terminating and padding appends to a segment that fits: zero bits up to a whole byte or to L, pad codewords,
and the nibble that may be left. -/
theorem terminateAndPad_eq {term capacity t : Nat} {seg : List Bool} (ht : min term (capacity - seg.length) = t)
    (hfit : seg.length ≤ capacity) (hcap : capacity % 8 = 0 ∨ capacity % 8 = 4) :
    ∃ align pads tail, terminateAndPad term capacity seg =
        seg ++ List.replicate t false ++ List.replicate align false ++ padBits pads ++ List.replicate tail false ∧
      align ≤ 7 ∧ ((seg.length + t + align) % 8 = 0 ∨ seg.length + t + align = capacity) ∧ tail ∈ [0, 4] ∧
      seg.length + t + align + 8 * pads + tail = capacity := by
  have htle : seg.length + t ≤ capacity := by omega
  generalize ha : min ((8 - (seg.length + t) % 8) % 8) (capacity - (seg.length + t)) = a
  generalize hp : (capacity - (seg.length + t + a)) / 8 = p
  have hpadded : appendPads capacity (alignToByte capacity (terminate term capacity seg)) =
      seg ++ List.replicate t false ++ List.replicate a false ++ padBits p := by
    simp only [appendPads_eq, alignToByte, terminate, List.length_append, List.length_replicate, ht, ha, hp]
  have hstop : (seg.length + t + a) % 8 = 0 ∨ seg.length + t + a = capacity := by omega
  rw [terminateAndPad, hpadded, appendNibble]
  simp only [List.length_append, List.length_replicate, padBits_length]
  split_ifs with hnibble
  · exact ⟨a, p, 4, rfl, by omega, hstop, by simp, by omega⟩
  · exact ⟨a, p, 0, by simp, by omega, hstop, by simp, by omega⟩

/-- Settles O26: the capacity leaves 0 or 4 modulo 8, so the stream's parts add up to it. -/
theorem packStreamFillsTheCapacity : Obligations.PackStreamFillsTheCapacity := by
  intro s ⟨_, _, _, _, cb, _, _, _, hfit⟩ len term
  obtain ⟨align, pads, tail, hstream, halign, hstop, htail, hsum⟩ :=
    terminateAndPad_eq (t := term) rfl hfit (capacity_mod s.config)
  refine ⟨?_, align, pads, tail, hstream, halign, hstop, htail⟩
  rw [packStream, hstream]
  simpa [Nat.add_assoc] using hsum

/-! ## Bytes and their bits (41_packer.md R178) -/

/-- A number given by its `n` binary digits, the highest first. -/
def valueOfBits (n : Nat) (f : Nat → Bool) : Nat :=
  ((List.range n).map fun j => if f j then 2 ^ (n - 1 - j) else 0).sum

theorem valueOfBits_succ (n : Nat) (f : Nat → Bool) : valueOfBits (n + 1) f = Nat.bit (f n) (valueOfBits n f) := by
  have hdouble : ((List.range n).map fun j => if f j then 2 ^ (n - j) else 0) =
      (List.range n).map fun j => 2 * if f j then 2 ^ (n - 1 - j) else 0 := by
    refine List.map_congr_left fun j hj => ?_
    have hexp : n - j = n - 1 - j + 1 := by have := List.mem_range.mp hj; omega
    rw [mul_ite, hexp, pow_succ']
  simp only [valueOfBits, List.range_succ, List.map_append, List.sum_append, Nat.add_sub_cancel, hdouble,
    List.sum_map_mul_left, Nat.bit_val]
  cases hf : f n <;> simp [hf]

theorem testBit_valueOfBits (n : Nat) (f : Nat → Bool) {j : Nat} (hj : j < n) :
    (valueOfBits n f).testBit (n - 1 - j) = f j := by
  induction n with
  | zero => exact absurd hj (Nat.not_lt_zero j)
  | succ n ih =>
    rw [valueOfBits_succ]
    by_cases hlast : j = n
    · rw [hlast, Nat.add_sub_cancel, Nat.sub_self, Nat.testBit_bit_zero]
    · have hidx : n + 1 - 1 - j = n - 1 - j + 1 := by omega
      rw [hidx, Nat.testBit_bit_succ, ih (by omega)]

theorem byteOfBits_eq (l : List Bool) : byteOfBits l = BitVec.ofNat 8 (valueOfBits 8 fun j => l.getD j false) := rfl

theorem byteOfBits_getLsbD (l : List Bool) {j : Nat} (hj : j < 8) :
    (byteOfBits l).getLsbD (7 - j) = l.getD j false := by
  have hbit : (valueOfBits 8 fun j => l.getD j false).testBit (7 - j) = l.getD j false := testBit_valueOfBits 8 _ hj
  have hlt : 7 - j < 8 := by omega
  simp only [byteOfBits_eq, BitVec.getLsbD_ofNat, hlt, decide_true, Bool.true_and, hbit]

theorem bytesOfBits_getElem {n i : Nat} (l : List Bool) (hi : i < n) :
    (bytesOfBits n l)[i]'(by simpa using hi) = byteOfBits ((l.drop (8 * i)).take 8) := by
  induction n generalizing i l with
  | zero => exact absurd hi (Nat.not_lt_zero i)
  | succ n ih =>
    cases i with
    | zero => rfl
    | succ i =>
      simp only [bytesOfBits, List.getElem_cons_succ]
      rw [ih _ (by omega), List.drop_drop, Nat.mul_succ, Nat.add_comm]

/-- Bit 7 − j of byte i is bit 8i + j of the sequence. -/
theorem bytesOfBits_getLsbD {n i j : Nat} (l : List Bool) (hi : i < n) (hj : j < 8) :
    ((bytesOfBits n l)[i]'(by simpa using hi)).getLsbD (7 - j) = l.getD (8 * i + j) false := by
  rw [bytesOfBits_getElem l hi, byteOfBits_getLsbD _ hj]
  simp [List.getD_eq_getElem?_getD, hj]

/-! ## PACK's writes (41_packer.md R160, R178, R179) -/

theorem exec_pack_of_accepts {s : State} (h : packAccepts s) : exec .pack s = .next (completeOk (packWrites s)) := by
  rw [exec_pack, packCheck_of_accepts h]

theorem dbuf_packWrites {s : State} {i : Nat} (hi : i < s.config.nData) :
    (completeOk (packWrites s)).dbuf i = (bytesOfBits s.config.nData (packStream s))[i]'(by simpa using hi) :=
  memByte_store_inside s dbufBase _ i _

/-- The bits of a legal symbol's capacity can be counted in 16 bits. -/
theorem capacity_lt {c : SymbolConfig} (h : c.check = none) : c.capacity < 2 ^ 16 := by
  have hn := nData_le h
  rw [SymbolConfig.capacity]
  omega

/-- Settles O27: one store of the stream's bytes at DBUF[0], and the registers. -/
theorem packWritesTheStream : Obligations.PackWritesTheStream := by
  intro s haccepts
  have hexec := exec_pack_of_accepts haccepts
  obtain ⟨hlegal, -, -, -, cb, -, -, -, hfit⟩ := haccepts
  have hcheck := (check_eq_none_iff _).mpr hlegal
  have hnData := nData_le hcheck
  have hcap := capacity_lt hcheck
  have hframe := sameBytesOutside_store s dbufBase (bytesOfBits s.config.nData (packStream s))
  rw [bytesOfBits_length] at hframe
  refine ⟨completeOk (packWrites s), hexec, rfl, ?_, fun hm => ?_, fun hm => ?_, ?_, fun i hi j hj => ?_, hframe⟩
  · exact (BitVec.toNat_ofNat _ _).trans (Nat.mod_eq_of_lt (by omega))
  · obtain ⟨mode, hmode⟩ := exists_code_of_mode_le hm
    exact (congrArg Mode.code (packMode_of_named hmode)).trans hmode.symm
  · exact congrArg Mode.code (packMode_of_auto (BitVec.eq_of_toNat_eq hm))
  · exact (BitVec.toNat_ofNat _ _).trans (Nat.mod_eq_of_lt (by omega))
  · rw [dbuf_packWrites hi, bytesOfBits_getLsbD _ hi hj]

end Sys2Proof.Machine
end

section
/-!
PROOFS. PACK's segment: no two payloads make the same one, and its bits as the rules list them.
-/

namespace Sys2Proof.Machine

/-! ## The values of characters -/

theorem digitValue_le {b : Byte} (h : isDigit b = true) : digitValue b ≤ 9 := by
  rw [isDigit_iff] at h
  rw [digitValue]
  omega

theorem digitValue_inj {a b : Byte} (ha : isDigit a = true) (hb : isDigit b = true)
    (h : digitValue a = digitValue b) : a = b := by
  rw [isDigit_iff] at ha hb
  simp only [digitValue] at h
  exact BitVec.eq_of_toNat_eq (by omega)

/-- A character of the set stands at its value in the listed order (20_memory.md R88). -/
theorem listed_alnumValue {b : Byte} (h : isAlnum b = true) :
    ("0123456789ABCDEFGHIJKLMNOPQRSTUVWXYZ $%*+-./:".toList.map Char.toNat)[alnumValue b]? = some b.toNat := by
  obtain ⟨v, hv⟩ := Option.isSome_iff_exists.mp h
  have hfind := (alnumValuesFollowTheListedOrder b).symm.trans hv
  obtain ⟨hlt, heq, -⟩ := List.findIdx?_eq_some_iff_getElem.mp hfind
  rw [alnumValue, hv, Option.getD_some, List.getElem?_eq_getElem hlt, beq_iff_eq.mp heq]

theorem alnumValue_lt {b : Byte} (h : isAlnum b = true) : alnumValue b < 45 := by
  obtain ⟨hlt, -⟩ := List.getElem?_eq_some_iff.mp (listed_alnumValue h)
  exact hlt

theorem alnumValue_inj {a b : Byte} (ha : isAlnum a = true) (hb : isAlnum b = true)
    (h : alnumValue a = alnumValue b) : a = b := by
  have hlisted := listed_alnumValue ha
  rw [h, listed_alnumValue hb] at hlisted
  exact BitVec.eq_of_toNat_eq (Option.some.inj hlisted).symm

/-! ## Bit fields -/

/-- A number is read off its bits. -/
theorem bits_inj {v v' w : Nat} (hv : v < 2 ^ w) (hv' : v' < 2 ^ w) (h : bits v w = bits v' w) : v = v' := by
  refine Nat.eq_of_testBit_eq fun i => ?_
  by_cases hi : i < w
  · have hbit := List.map_inj_left.mp h (w - 1 - i) (List.mem_range.mpr (by omega))
    rwa [show w - 1 - (w - 1 - i) = i by omega] at hbit
  · have hle : 2 ^ w ≤ 2 ^ i := Nat.pow_le_pow_right (by omega) (by omega)
    rw [Nat.testBit_lt_two_pow (hv.trans_le hle), Nat.testBit_lt_two_pow (hv'.trans_le hle)]

/-- A field and what follows it are read off. -/
theorem bits_append_inj {v v' w : Nat} {l l' : List Bool} (hv : v < 2 ^ w) (hv' : v' < 2 ^ w)
    (h : bits v w ++ l = bits v' w ++ l') : v = v' ∧ l = l' := by
  obtain ⟨hbits, hrest⟩ := List.append_inj h (by simp)
  exact ⟨bits_inj hv hv' hbits, hrest⟩

/-- The bits of a field by division (00_scope.md R13). -/
theorem bits_eq_div (v w : Nat) : bits v w = (List.range w).map fun k => v / 2 ^ (w - 1 - k) % 2 == 1 := by
  simp only [bits, Nat.testBit_eq_decide_div_mod_eq]
  rfl

/-! ## The payload is read off its bits (41_packer.md R169-R171) -/

theorem numericBits_inj {p q : List Byte} (hp : p.all isDigit = true) (hq : q.all isDigit = true)
    (hlen : p.length = q.length) (h : numericBits p = numericBits q) : p = q := by
  induction p using numericBits.induct generalizing q with
  | case1 => exact (List.length_eq_zero_iff.mp hlen.symm).symm
  | case2 a =>
    obtain ⟨a', rfl⟩ := List.length_eq_one_iff.mp hlen.symm
    simp only [List.all_cons, List.all_nil, Bool.and_true] at hp hq
    have ha := digitValue_le hp
    have ha' := digitValue_le hq
    rw [digitValue_inj hp hq (bits_inj (by omega) (by omega) h)]
  | case3 a b =>
    obtain ⟨a', b', rfl⟩ := List.length_eq_two.mp hlen.symm
    simp only [List.all_cons, List.all_nil, Bool.and_true, Bool.and_eq_true] at hp hq
    obtain ⟨ha, hb⟩ := hp
    obtain ⟨ha', hb'⟩ := hq
    have hle := And.intro (digitValue_le ha) (digitValue_le hb)
    have hle' := And.intro (digitValue_le ha') (digitValue_le hb')
    have hv := bits_inj (by omega) (by omega) h
    rw [digitValue_inj ha ha' (by omega), digitValue_inj hb hb' (by omega)]
  | case4 a b c rest ih =>
    match q, hlen with
    | a' :: b' :: c' :: rest', hlen =>
      simp only [List.all_cons, Bool.and_eq_true] at hp hq
      obtain ⟨ha, hb, hc, hrest⟩ := hp
      obtain ⟨ha', hb', hc', hrest'⟩ := hq
      have hle := And.intro (digitValue_le ha) (And.intro (digitValue_le hb) (digitValue_le hc))
      have hle' := And.intro (digitValue_le ha') (And.intro (digitValue_le hb') (digitValue_le hc'))
      obtain ⟨hv, hbits⟩ := bits_append_inj (by omega) (by omega) h
      rw [digitValue_inj ha ha' (by omega), digitValue_inj hb hb' (by omega), digitValue_inj hc hc' (by omega),
        ih hrest hrest' (by simpa using hlen) hbits]

theorem alnumBits_inj {p q : List Byte} (hp : p.all isAlnum = true) (hq : q.all isAlnum = true)
    (hlen : p.length = q.length) (h : alnumBits p = alnumBits q) : p = q := by
  induction p using alnumBits.induct generalizing q with
  | case1 => exact (List.length_eq_zero_iff.mp hlen.symm).symm
  | case2 a =>
    obtain ⟨a', rfl⟩ := List.length_eq_one_iff.mp hlen.symm
    simp only [List.all_cons, List.all_nil, Bool.and_true] at hp hq
    have ha := alnumValue_lt hp
    have ha' := alnumValue_lt hq
    rw [alnumValue_inj hp hq (bits_inj (by omega) (by omega) h)]
  | case3 a b rest ih =>
    match q, hlen with
    | a' :: b' :: rest', hlen =>
      simp only [List.all_cons, Bool.and_eq_true] at hp hq
      obtain ⟨ha, hb, hrest⟩ := hp
      obtain ⟨ha', hb', hrest'⟩ := hq
      have hlt := And.intro (alnumValue_lt ha) (alnumValue_lt hb)
      have hlt' := And.intro (alnumValue_lt ha') (alnumValue_lt hb')
      obtain ⟨hv, hbits⟩ := bits_append_inj (by omega) (by omega) h
      rw [alnumValue_inj ha ha' (by omega), alnumValue_inj hb hb' (by omega),
        ih hrest hrest' (by simpa using hlen) hbits]

theorem byteBits_inj {p q : List Byte} (hlen : p.length = q.length) (h : byteBits p = byteBits q) : p = q := by
  induction p generalizing q with
  | nil => exact (List.length_eq_zero_iff.mp hlen.symm).symm
  | cons a p ih =>
    match q, hlen with
    | a' :: q, hlen =>
      obtain ⟨hv, hbits⟩ := bits_append_inj a.isLt a'.isLt h
      rw [BitVec.eq_of_toNat_eq hv, ih (by simpa using hlen) hbits]

theorem payloadBits_inj {mode : Mode} {p q : List Byte} (hp : charsValid mode p = true) (hq : charsValid mode q = true)
    (hlen : p.length = q.length) (h : payloadBits mode p = payloadBits mode q) : p = q := by
  cases mode with
  | numeric => exact numericBits_inj hp hq hlen h
  | alphanumeric => exact alnumBits_inj hp hq hlen h
  | byte => exact byteBits_inj hlen h

/-- Settles O28: the count field gives the length, and with it the payload is read off. -/
theorem segmentDeterminesThePayload : Obligations.SegmentDeterminesThePayload := by
  intro micro ver cb mode p q
  refine ⟨fun hp hq hplen hqlen h => ?_, ?_⟩
  · simp only [segment, List.append_assoc, List.append_cancel_left_eq] at h
    obtain ⟨hlen, hbits⟩ := bits_append_inj hplen hqlen h
    exact payloadBits_inj hp hq hlen hbits
  · cases mode <;> exact segment_length micro ver _ cb p

/-! ## The segment by the rules (20_memory.md R85, R86; 41_packer.md R167-R171) -/

/-- The count widths of 20_memory.md R85 by version, Numeric, AlphaNumeric, Byte in turn. -/
def countWidths (micro : Bool) (ver : Nat) : List Nat :=
  if micro then [[3], [4, 3], [5, 4, 4], [6, 5, 5]].getD (ver - 1) []
  else if ver ≤ 9 then [10, 9, 8] else if ver ≤ 26 then [12, 11, 16] else [14, 13, 16]

theorem countBits_eq_countWidths {c : SymbolConfig} (h : c.versionOK = true) (mode : Mode) :
    countBits c.micro c.ver mode = (countWidths c.micro c.ver)[mode.code.toNat]? := by
  simp only [countBits_eq, isoCountBits, countWidths]
  obtain ⟨hm, -, -⟩ | ⟨hm, hpos, hle⟩ := (versionOK_iff c).mp h
  · simp only [hm, Bool.false_eq_true, if_false]
    split_ifs <;> cases mode <;> rfl
  · have hver : c.ver = 1 ∨ c.ver = 2 ∨ c.ver = 3 ∨ c.ver = 4 := by rw [SymbolConfig.ver]; omega
    rcases hver with hv | hv | hv | hv <;> cases mode <;> simp only [hm, hv] <;> rfl

/-- The mode indicator: in a Micro symbol the mode's number in ver − 1 bits, in a Normal one a single 1 of four. -/
theorem modeBits_eq (micro : Bool) (ver : Nat) (mode : Mode) : modeBits micro ver mode =
    if micro then bits mode.code.toNat (ver - 1) else bits (2 ^ mode.code.toNat) 4 := by
  rw [modeBits, modeInd_eq]
  cases micro <;> cases mode <;> rfl

/-- The bits of one group of digits (41_packer.md R169). -/
def digitGroupBits (digits : List Byte) : List Bool :=
  bits (digits.foldl (fun v b => 10 * v + (b.toNat - 0x30)) 0)
    (if digits.length = 3 then 10 else if digits.length = 2 then 7 else 4)

theorem numericBits_eq_groups (payload : List Byte) : numericBits payload =
    (List.range ((payload.length + 2) / 3)).flatMap fun i => digitGroupBits ((payload.drop (3 * i)).take 3) := by
  induction payload using numericBits.induct with
  | case1 => rfl
  | case2 a => simp [numericBits, digitGroupBits, digitValue]
  | case3 a b => simp [numericBits, digitGroupBits, digitValue]
  | case4 a b c rest ih =>
    have hgroups : ((a :: b :: c :: rest).length + 2) / 3 = (rest.length + 2) / 3 + 1 := by
      simp only [List.length_cons]
      omega
    have hgroup : digitGroupBits [a, b, c] =
        bits (100 * digitValue a + 10 * digitValue b + digitValue c) 10 := by
      have hvalue : 10 * (10 * (10 * 0 + digitValue a) + digitValue b) + digitValue c =
          100 * digitValue a + 10 * digitValue b + digitValue c := by omega
      exact congrArg (bits · 10) hvalue
    rw [numericBits, ih, hgroups, List.range_succ_eq_map, List.flatMap_cons, List.flatMap_map, ← hgroup]
    rfl

/-- The bits of pair i of n characters with these values, or of the last one alone (41_packer.md R170). -/
def charPairBits (value : Nat → Nat) (n i : Nat) : List Bool :=
  if 2 * i + 1 < n then bits (45 * value (2 * i) + value (2 * i + 1)) 11 else bits (value (2 * i)) 6

theorem charPairBits_succ (value : Nat → Nat) (n i : Nat) :
    charPairBits value (n + 2) (i + 1) = charPairBits (fun j => value (j + 2)) n i := by
  have hlt : 2 * i + 2 + 1 < n + 2 ↔ 2 * i + 1 < n := by omega
  simp only [charPairBits, Nat.mul_succ, hlt, Nat.add_right_comm _ 2 1]

theorem alnumBits_eq_pairs (payload : List Byte) : alnumBits payload =
    (List.range ((payload.length + 1) / 2)).flatMap
      (charPairBits (fun j => alnumValue (payload.getD j 0#8)) payload.length) := by
  induction payload using alnumBits.induct with
  | case1 => rfl
  | case2 a => simp [alnumBits, charPairBits]
  | case3 a b rest ih =>
    have hpairs : ((a :: b :: rest).length + 1) / 2 = (rest.length + 1) / 2 + 1 := by
      simp only [List.length_cons]
      omega
    rw [alnumBits, ih, hpairs, List.range_succ_eq_map, List.flatMap_cons, List.flatMap_map]
    simp only [List.length_cons, Nat.succ_eq_add_one, charPairBits_succ]
    rw [charPairBits, if_pos (by omega)]
    rfl

/-- Settles O60: the tables by number, and the payload's bits group by group. -/
theorem segmentBitsFollowTheRules : Obligations.SegmentBitsFollowTheRules := by
  unfold Obligations.SegmentBitsFollowTheRules
  intro widths field
  have hfield : field = bits := by
    funext v w
    exact (bits_eq_div v w).symm
  have hwidths : widths = countWidths := rfl
  clear_value field widths
  subst hfield hwidths
  refine ⟨fun c mode hv => countBits_eq_countWidths hv mode, fun s => ?_⟩
  intro n payload
  refine ⟨rfl, packMode_of_named (mode := .numeric), packMode_of_named (mode := .alphanumeric),
    packMode_of_named (mode := .byte), packMode_of_auto, fun haccepts => ?_⟩
  obtain ⟨⟨hv, -⟩, -⟩ := haccepts
  intro m indicator count value data
  have hcount : (countWidths s.config.micro s.config.ver).getD m 0 = (packCountBits s).getD 0 := by
    rw [packCountBits, countBits_eq_countWidths hv, List.getD_eq_getElem?_getD]
  have hdata : payloadBits (packMode s) (packPayload s) = data := by
    have hgroups := numericBits_eq_groups (packPayload s)
    have hpairs := alnumBits_eq_pairs (packPayload s)
    rw [packPayload_length] at hgroups hpairs
    simp only [data]
    cases packMode s with
    | numeric => exact hgroups
    | alphanumeric => exact hpairs
    | byte => rfl
  rw [packSegment, segment, packPayload_length, modeBits_eq, hdata, ← hcount]

end Sys2Proof.Machine
end

section
/-!
PROOFS. The traversal: column pairs from right to left, every cell outside the skipped column once.
-/

namespace Sys2Proof.Machine

/-! ## Blocks one after the other -/

/-- Block i of a sequence of blocks begins behind the blocks before it. -/
theorem getElem?_flatMap_range {α : Type} (f : Nat → List α) {i N j : Nat} (hi : i < N) (hj : j < (f i).length) :
    ((List.range N).flatMap f)[((List.range i).flatMap f).length + j]? = (f i)[j]? := by
  induction N, hi using Nat.le_induction with
  | base => rw [List.range_succ, List.flatMap_append, List.getElem?_append_right (Nat.le_add_right _ _)]; simp
  | succ N hN ih =>
    have hlt : ((List.range i).flatMap f).length + j < ((List.range N).flatMap f).length := by
      rw [List.getElem?_eq_getElem hj] at ih
      exact (List.getElem?_eq_some_iff.mp ih).1
    rw [List.range_succ, List.flatMap_append, List.getElem?_append_left hlt, ih]

theorem length_flatMap_range_const {α : Type} {f : Nat → List α} {m : Nat} (h : ∀ i, (f i).length = m) (n : Nat) :
    ((List.range n).flatMap f).length = m * n := by
  simp [List.length_flatMap, h, Nat.mul_comm]

/-- Blocks without repetition that share no element, one after the other. -/
theorem nodup_flatMap_range {α : Type} {f : Nat → List α} {n : Nat} (hf : ∀ i < n, (f i).Nodup)
    (hshare : ∀ i < n, ∀ j < n, ∀ x ∈ f i, x ∈ f j → i = j) : ((List.range n).flatMap f).Nodup := by
  refine List.nodup_flatMap.mpr ⟨fun i hi => hf i (List.mem_range.mp hi), List.nodup_range.imp_of_mem ?_⟩
  exact fun hi hj hne x hxi hxj => hne (hshare _ (List.mem_range.mp hi) _ (List.mem_range.mp hj) x hxi hxj)

/-! ## The traversal in closed form (42_matrix.md R212) -/

/-- The right column of a pair of the traversal, `column` being what it is where no column is skipped. -/
def pairColumn (micro : Bool) (column : Nat) : Nat :=
  if micro = false ∧ column ≤ 6 then column - 1 else column

@[simp] theorem columnPair_length (dim right : Nat) (up : Bool) : (columnPair dim right up).length = 2 * dim :=
  length_flatMap_range_const (by simp) _

theorem mem_columnPair {dim right : Nat} {up : Bool} {r k : Nat} :
    (r, k) ∈ columnPair dim right up ↔ r < dim ∧ (k = right ∨ k = right - 1) := by
  simp only [columnPair, List.mem_flatMap, List.mem_range, List.mem_cons, Prod.mk.injEq, List.not_mem_nil, or_false]
  constructor
  · rintro ⟨i, hi, h⟩
    split_ifs at h <;> omega
  · rintro ⟨hr, hk⟩
    refine ⟨if up then dim - 1 - r else r, ?_, ?_⟩ <;> split_ifs <;> omega

theorem columnPair_nodup {dim right : Nat} (h : 1 ≤ right) (up : Bool) : (columnPair dim right up).Nodup := by
  refine nodup_flatMap_range (fun k _ => by simp; omega) ?_
  rintro k hk l hl ⟨r, c⟩ h1 h2
  simp only [List.mem_cons, Prod.mk.injEq, List.not_mem_nil, or_false] at h1 h2
  split_ifs at h1 h2 <;> omega

/-- Row k of a column pair: the right column, then the left one. -/
theorem getElem?_columnPair {dim k : Nat} (hk : k < dim) (right : Nat) (up : Bool) :
    (columnPair dim right up)[2 * k]? = some (if up then dim - 1 - k else k, right) ∧
    (columnPair dim right up)[2 * k + 1]? = some (if up then dim - 1 - k else k, right - 1) := by
  have hblock := fun j hj => getElem?_flatMap_range
    (fun k => [(if up then dim - 1 - k else k, right), (if up then dim - 1 - k else k, right - 1)]) (j := j) hk hj
  rw [length_flatMap_range_const (m := 2) (by simp)] at hblock
  exact ⟨hblock 0 (by simp), hblock 1 (by simp)⟩

/-- The column the loop has counted down to with the pairs up to `column` left: past column 6 a Normal symbol is one
column further left. -/
def loopColumn (micro : Bool) (column : Nat) : Nat := if micro = false ∧ column < 6 then column - 1 else column

theorem pairColumn_of_loopColumn (micro : Bool) (n : Nat) :
    (if !micro && loopColumn micro (2 * n) == 6 then 5 else loopColumn micro (2 * n)) = pairColumn micro (2 * n) := by
  cases micro with
  | true => simp [pairColumn, loopColumn]
  | false => simp [pairColumn, loopColumn]; split_ifs <;> omega

theorem loopColumn_next (micro : Bool) (n : Nat) :
    pairColumn micro (2 * (n + 1)) - 2 = loopColumn micro (2 * n) := by
  cases micro with
  | true => simp [pairColumn, loopColumn]; omega
  | false => simp only [pairColumn, loopColumn, true_and]; split_ifs <;> omega

theorem loopColumn_pos (micro : Bool) (n : Nat) : 1 ≤ loopColumn micro (2 * (n + 1)) := by
  rw [loopColumn]
  split_ifs <;> omega

/-- The loop with `n` column pairs left. -/
theorem traverseFrom_eq (micro : Bool) (dim : Nat) {n fuel : Nat} (hfuel : n ≤ fuel) (up : Bool) :
    traverseFrom micro dim fuel (loopColumn micro (2 * n)) up =
      (List.range n).flatMap fun i => columnPair dim (pairColumn micro (2 * (n - i))) (up ^^ decide (i % 2 = 1)) := by
  induction n generalizing fuel up with
  | zero => cases fuel <;> simp [traverseFrom, loopColumn]
  | succ n ih =>
    obtain ⟨fuel, rfl⟩ : ∃ m, fuel = m + 1 := ⟨fuel - 1, by omega⟩
    have hparity (i : Nat) : (!up ^^ decide (i % 2 = 1)) = (up ^^ decide ((i + 1) % 2 = 1)) := by
      rcases Nat.mod_two_eq_zero_or_one i with h | h <;> simp [Nat.add_mod, h]
    rw [traverseFrom, if_pos (loopColumn_pos micro n)]
    simp only [pairColumn_of_loopColumn, loopColumn_next]
    rw [ih (by omega), List.range_succ_eq_map, List.flatMap_cons, List.flatMap_map]
    simp [hparity]

/-- The pair number q of the traversal: its right column. -/
def traversalColumn (micro : Bool) (dim q : Nat) : Nat := pairColumn micro (dim - 1 - 2 * q)

/-- The last pairs of a Normal symbol, from column 6 on, lie one column further left. -/
theorem traversalColumn_cases (micro : Bool) (dim q : Nat) :
    ((micro = true ∨ 6 < dim - 1 - 2 * q) ∧ traversalColumn micro dim q = dim - 1 - 2 * q) ∨
    (micro = false ∧ dim - 1 - 2 * q ≤ 6 ∧ traversalColumn micro dim q = dim - 1 - 2 * q - 1) := by
  rw [traversalColumn, pairColumn]
  cases micro with
  | true => simp
  | false => simp; omega

section
variable {dim : Nat} (hodd : dim % 2 = 1) (hdim : 7 ≤ dim) (micro : Bool)
include hodd hdim

/-- A side is odd, so the loop ends with the pair whose left column is 0 or, in a Micro symbol, 1. -/
theorem traversal_eq :
    traversal micro dim = (List.range ((dim - 1) / 2)).flatMap fun q =>
      columnPair dim (traversalColumn micro dim q) (decide (q % 2 = 0)) := by
  have hstart : loopColumn micro (2 * ((dim - 1) / 2)) = dim - 1 := by
    rw [loopColumn]
    split_ifs <;> omega
  have hloop := traverseFrom_eq micro dim (n := (dim - 1) / 2) (fuel := dim) (by omega) true
  rw [traversal, ← hstart, hloop, hstart]
  refine List.flatMap_congr fun q hq => ?_
  rw [List.mem_range] at hq
  rw [traversalColumn, show 2 * ((dim - 1) / 2 - q) = dim - 1 - 2 * q by omega]
  rcases Nat.mod_two_eq_zero_or_one q with h | h <;> simp [h]

theorem traversal_length : (traversal micro dim).length = dim * (dim - 1) := by
  rw [traversal_eq hodd hdim micro, length_flatMap_range_const (m := 2 * dim) (by simp), Nat.mul_comm 2, Nat.mul_assoc]
  congr 1
  omega

/-- The cell number 2k and the next one of pair q. -/
theorem getElem?_traversal {q k : Nat} (hq : q < (dim - 1) / 2) (hk : k < dim) :
    (traversal micro dim)[2 * (dim * q + k)]? =
      some (if q % 2 = 0 then dim - 1 - k else k, traversalColumn micro dim q) ∧
    (traversal micro dim)[2 * (dim * q + k) + 1]? =
      some (if q % 2 = 0 then dim - 1 - k else k, traversalColumn micro dim q - 1) := by
  have hblock := fun j hj => getElem?_flatMap_range
    (fun q => columnPair dim (traversalColumn micro dim q) (decide (q % 2 = 0))) (j := j) hq hj
  rw [length_flatMap_range_const (m := 2 * dim) (by simp), ← traversal_eq hodd hdim micro] at hblock
  simp only [columnPair_length] at hblock
  obtain ⟨hright, hleft⟩ := getElem?_columnPair hk (traversalColumn micro dim q) (decide (q % 2 = 0))
  have h0 := (hblock (2 * k) (by omega)).trans hright
  have h1 := (hblock (2 * k + 1) (by omega)).trans hleft
  rw [Nat.mul_add, ← Nat.mul_assoc]
  simp only [decide_eq_true_eq] at h0 h1
  exact ⟨h0, h1⟩

theorem mem_traversal (r k : Nat) : (r, k) ∈ traversal micro dim ↔ r < dim ∧ k < dim ∧ k ≠ if micro then 0 else 6 := by
  simp only [traversal_eq hodd hdim micro, List.mem_flatMap, List.mem_range, mem_columnPair]
  constructor
  · rintro ⟨q, hq, hr, hk⟩
    have hcol := traversalColumn_cases micro dim q
    cases micro <;> simp at hcol ⊢ <;> omega
  · rintro ⟨hr, hk, hskip⟩
    have hcol := traversalColumn_cases micro dim
    cases micro with
    | true =>
      have hq := hcol ((dim - 1 - k) / 2)
      exact ⟨(dim - 1 - k) / 2, by simp at hskip hq; omega, hr, by simp at hskip hq; omega⟩
    | false =>
      by_cases hleft : k < 6
      · have hq := hcol ((dim - 2 - k) / 2)
        exact ⟨(dim - 2 - k) / 2, by omega, hr, by simp at hq; omega⟩
      · have hq := hcol ((dim - 1 - k) / 2)
        exact ⟨(dim - 1 - k) / 2, by simp at hskip; omega, hr, by simp at hskip hq; omega⟩

theorem traversal_nodup : (traversal micro dim).Nodup := by
  rw [traversal_eq hodd hdim micro]
  have hcol := traversalColumn_cases micro dim
  refine nodup_flatMap_range (fun q hq => columnPair_nodup (by have := hcol q; omega) _) ?_
  rintro p hp q hq ⟨r, k⟩ h1 h2
  obtain ⟨-, h1⟩ := mem_columnPair.mp h1
  obtain ⟨-, h2⟩ := mem_columnPair.mp h2
  have hp' := hcol p
  have hq' := hcol q
  cases micro <;> simp at hp' hq' <;> omega

end

/-! ## The sides of legal symbols (10_state.md R32) -/

theorem dim_bounds {c : SymbolConfig} (h : c.versionOK = true) : c.dim % 2 = 1 ∧ 11 ≤ c.dim ∧ c.dim ≤ 177 := by
  rw [SymbolConfig.dim, SymbolConfig.ver]
  obtain ⟨hm, h1, h2⟩ | ⟨hm, h1, h2⟩ := (versionOK_iff c).mp h <;> simp [hm] <;> omega

/-- Settles O32: the loop in closed form, and the positions, the cells and their distinctness read off it. -/
theorem traversalVisitsEachCellOnce : Obligations.TraversalVisitsEachCellOnce := by
  intro c hv
  obtain ⟨hodd, hdim, -⟩ := dim_bounds hv
  refine ⟨traversal_length hodd (by omega) _, fun q k hq hk => getElem?_traversal hodd (by omega) _ hq hk,
    traversal_nodup hodd (by omega) _, mem_traversal hodd (by omega) _⟩

end Sys2Proof.Machine
end

section
/-!
PROOFS. What drawing a list of cells leaves in a plane, and RESERVE's draws: no cell of the function patterns is
drawn twice.
-/

namespace Sys2Proof.Machine

/-! ## Draws on a plane -/

/-- The cells a list of draws names. -/
def drawnCells (ds : List Draw) : List (Nat × Nat) := ds.map fun d => (d.1, d.2.1)

@[simp] theorem drawnCells_append (ds es : List Draw) : drawnCells (ds ++ es) = drawnCells ds ++ drawnCells es :=
  List.map_append

@[simp] theorem drawnCells_length (ds : List Draw) : (drawnCells ds).length = ds.length := List.length_map _

@[simp] theorem drawnCells_reserving (ds : List Draw) : drawnCells (reserving ds) = drawnCells ds := by
  simp [drawnCells, reserving]

theorem mem_drawnCells {ds : List Draw} {r c : Nat} : (r, c) ∈ drawnCells ds ↔ ∃ v, (r, c, v) ∈ ds := by
  simp [drawnCells]

theorem mem_drawnCells_of_mem {ds : List Draw} {r c : Nat} {v : Bool} (h : (r, c, v) ∈ ds) :
    (r, c) ∈ drawnCells ds := mem_drawnCells.mpr ⟨v, h⟩

/-- Where no cell is drawn twice, a cell is drawn with one value. -/
theorem draw_unique {ds : List Draw} (hnd : (drawnCells ds).Nodup) {r c : Nat} {v w : Bool} (hv : (r, c, v) ∈ ds)
    (hw : (r, c, w) ∈ ds) : v = w := by
  have h := List.inj_on_of_nodup_map hnd hv hw rfl
  simpa using h

theorem cell_draw_of_nodup {ds : List Draw} (hnd : (drawnCells ds).Nodup) {r c : Nat} {v : Bool}
    (hg : inGrid r c = true) (h : (r, c, v) ∈ ds) (p : Plane) (free : Nat → Bool) :
    (p.draw ds).cell free r c = v := by
  refine cell_draw_of_mem p free ds r c v hg h ?_
  rintro ⟨_, _, w⟩ hd rfl rfl
  exact draw_unique hnd hd h

theorem cell_draw_of_not_drawn {ds : List Draw} {r c : Nat} (h : (r, c) ∉ drawnCells ds) (p : Plane)
    (free : Nat → Bool) : (p.draw ds).cell free r c = p.cell free r c := by
  refine cell_draw_of_not_mem p free ds r c ?_
  rintro ⟨_, _, w⟩ hd ⟨rfl, rfl⟩
  exact h (mem_drawnCells_of_mem hd)

/-- A plane drawn from a blank one with 1s holds a 1 in the drawn cells and nowhere else. -/
theorem cell_reserving_iff (ds : List Draw) (free : Nat → Bool) (r c : Nat) :
    (Plane.blank.draw (reserving ds)).cell free r c = true ↔ inGrid r c = true ∧ (r, c) ∈ drawnCells ds := by
  by_cases hd : (r, c) ∈ drawnCells ds
  · obtain ⟨v, hv⟩ := mem_drawnCells.mp hd
    have hmem : (r, c, true) ∈ reserving ds := List.mem_map.mpr ⟨_, hv, rfl⟩
    have hone : ∀ d ∈ reserving ds, d.1 = r → d.2.1 = c → d.2.2 = true := by simp +contextual [reserving]
    by_cases hg : inGrid r c = true
    · simp only [hg, hd, cell_draw_of_mem _ free _ _ _ _ hg hmem hone, and_self]
    · simp [Plane.cell, hg]
  · rw [cell_draw_of_not_drawn (by rwa [drawnCells_reserving]), cell_blank]
    simp [hd]

/-- The cells of a square, each once. -/
theorem squareCells_nodup (n : Nat) : (squareCells n).Nodup := by
  have : squareCells n = (List.range n) ×ˢ (List.range n) := rfl
  rw [this]
  exact List.nodup_range.product List.nodup_range

theorem squareCells_length (n : Nat) : (squareCells n).length = n * n := by
  simp [squareCells, List.length_flatMap]

/-! ## The function patterns, cell by cell (42_matrix.md R201, R203-R208) -/

theorem mem_finderDraws {r0 c0 r c : Nat} {v : Bool} : (r, c, v) ∈ finderDraws r0 c0 ↔
    ∃ i j, i < 7 ∧ j < 7 ∧ r = r0 + i ∧ c = c0 + j ∧ v = !(max (gap i 3) (gap j 3) == 2) := by
  simp only [finderDraws, List.mem_map, Prod.exists, mem_squareCells, Prod.mk.injEq]
  grind

theorem mem_alignDraws {a b r c : Nat} {v : Bool} : (r, c, v) ∈ alignDraws a b ↔
    ∃ i j, i < 5 ∧ j < 5 ∧ r = a - 2 + i ∧ c = b - 2 + j ∧ v = !(max (gap i 2) (gap j 2) == 1) := by
  simp only [alignDraws, List.mem_map, Prod.exists, mem_squareCells, Prod.mk.injEq]
  grind

/-- The row or column of the separator of a finder whose corner has the coordinate `x0`. -/
def separatorLine (x0 : Nat) : Nat := if x0 = 0 then 7 else x0 - 1

/-- The separator at a finder's corner: its row of eight and its column, the shared cell in the row. -/
theorem separatorDraws_eq (r0 c0 : Nat) : separatorDraws r0 c0 =
    (List.range' (c0 - 1) 8).map (fun c => (separatorLine r0, c, false)) ++
      ((List.range' (r0 - 1) 8).filter fun r => r != separatorLine r0).map fun r => (r, separatorLine c0, false) := by
  have hline (x0 : Nat) : (List.range 8).map (fun k => if x0 = 0 then k else x0 - 1 + k) = List.range' (x0 - 1) 8 := by
    rw [List.range'_eq_map_range]
    refine List.map_congr_left fun k _ => ?_
    split_ifs <;> omega
  rw [← hline c0, ← hline r0, List.map_map]
  rfl

theorem mem_separatorDraws {r0 c0 r c : Nat} {v : Bool} : (r, c, v) ∈ separatorDraws r0 c0 ↔ v = false ∧
    (r = separatorLine r0 ∧ c0 - 1 ≤ c ∧ c < c0 - 1 + 8 ∨
      c = separatorLine c0 ∧ r0 - 1 ≤ r ∧ r < r0 - 1 + 8 ∧ r ≠ separatorLine r0) := by
  simp only [separatorDraws_eq, List.mem_append, List.mem_map, List.mem_filter, List.mem_range'_1, Prod.mk.injEq,
    bne_iff_ne]
  grind

/-- A finder and its separator. -/
def cornerDraws (r0 c0 : Nat) : List Draw := finderDraws r0 c0 ++ separatorDraws r0 c0

/-- Finder and separator lie in a square of eight, at the edges of the symbol or one outside the finder's corner. -/
theorem cornerDraws_box {r0 c0 r c : Nat} {v : Bool} (h : (r, c, v) ∈ cornerDraws r0 c0) :
    r0 - 1 ≤ r ∧ r < r0 - 1 + 8 ∧ c0 - 1 ≤ c ∧ c < c0 - 1 + 8 := by
  rcases List.mem_append.mp h with h | h
  · obtain ⟨i, j, hi, hj, rfl, rfl, -⟩ := mem_finderDraws.mp h
    omega
  · obtain ⟨-, h | h⟩ := mem_separatorDraws.mp h <;> rw [separatorLine] at h <;> split_ifs at h <;> omega

/-- The cells of bit b of the format word in a Normal symbol, by the line they lie on. -/
theorem fmtCells_place {dim b r c : Nat} (hdim : 21 ≤ dim) (hb : b < 15) (h : (r, c) ∈ fmtCells false dim b) :
    (c = 8 ∧ (b ≤ 5 ∧ r = b ∨ 6 ≤ b ∧ b ≤ 7 ∧ r = b + 1)) ∨
    (r = 8 ∧ (b = 8 ∧ c = 7 ∨ 9 ≤ b ∧ c + b = 14)) ∨
    (r = 8 ∧ b ≤ 7 ∧ c + b + 1 = dim) ∨ (c = 8 ∧ 8 ≤ b ∧ r + 15 = dim + b) := by
  simp only [fmtCells, Bool.false_eq_true, if_false] at h
  split_ifs at h <;> simp only [List.mem_cons, Prod.mk.injEq, List.not_mem_nil, or_false] at h <;>
    obtain ⟨rfl, rfl⟩ | ⟨rfl, rfl⟩ := h <;> omega

theorem mem_formatDraws {micro : Bool} {dim r c : Nat} {v : Bool} : (r, c, v) ∈ formatDraws micro dim 0 ↔
    v = false ∧ ∃ b < 15, (r, c) ∈ fmtCells micro dim b := by
  simp only [formatDraws, List.mem_flatMap, List.mem_map, List.mem_range, Prod.exists, Prod.mk.injEq,
    Nat.zero_testBit]
  grind

theorem mem_verCells {dim b r c : Nat} (hdim : 21 ≤ dim) : (r, c) ∈ verCells dim b ↔
    (r = b / 3 ∧ c + 11 = dim + b % 3) ∨ (c = b / 3 ∧ r + 11 = dim + b % 3) := by
  simp only [verCells, List.mem_cons, Prod.mk.injEq, List.not_mem_nil, or_false]
  omega

theorem mem_versionDraws {ver dim r c : Nat} {v : Bool} : (r, c, v) ∈ versionDraws false ver dim 0 ↔
    v = false ∧ 7 ≤ ver ∧ ∃ b < 18, (r, c) ∈ verCells dim b := by
  by_cases hver : 7 ≤ ver
  · simp only [versionDraws, hver, Bool.not_false, decide_true, Bool.and_true, if_true, List.mem_flatMap,
      List.mem_map, List.mem_range, Prod.exists, Prod.mk.injEq, Nat.zero_testBit]
    grind
  · simp [versionDraws, hver]

/-! ## The alignment patterns (20_memory.md R89; 42_matrix.md R202) -/

/-- The centre pairs whose pattern is drawn. -/
def alignmentCentres (ver dim : Nat) : List (Nat × Nat) :=
  (alignCentres ver ×ˢ alignCentres ver).filter fun p => !overlapsZone dim p.1 p.2

theorem alignmentDraws_eq (ver dim : Nat) :
    alignmentDraws ver dim = (alignmentCentres ver dim).flatMap fun p => alignDraws p.1 p.2 := by
  have hrow (a : Nat) (bs : List Nat) : (bs.flatMap fun b => if overlapsZone dim a b then [] else alignDraws a b) =
      ((bs.map (Prod.mk a)).filter fun p => !overlapsZone dim p.1 p.2).flatMap fun p => alignDraws p.1 p.2 := by
    induction bs with
    | nil => rfl
    | cons b bs ih => cases h : overlapsZone dim a b <;> simp [h, ih]
  have hpairs : alignCentres ver ×ˢ alignCentres ver =
      (alignCentres ver).flatMap fun a => (alignCentres ver).map (Prod.mk a) := rfl
  rw [alignmentDraws, alignmentCentres, hpairs, List.filter_flatMap, List.flatMap_assoc]
  exact List.flatMap_congr fun a _ => hrow a _

/-- The lines centres lie on: even, and one of two outer lines of the symbol or well between them. -/
abbrev centreLine (v a : Nat) : Prop := a % 2 = 0 ∧ (a = 6 ∨ a = 4 * v + 10 ∨ 22 ≤ a ∧ a + 6 ≤ 4 * v)

/-- The centre pairs at the three finders. -/
abbrev atFinder (v a b : Nat) : Prop := a = 6 ∧ (b = 6 ∨ b = 4 * v + 10) ∨ a = 4 * v + 10 ∧ b = 6

/-- The centres of a version are apart from each other. -/
theorem alignCentres_table : ∀ v < 41, (alignCentres v).Nodup ∧
    (∀ a ∈ alignCentres v, ∀ b ∈ alignCentres v, a = b ∨ a + 12 ≤ b ∨ b + 12 ≤ a) ∧
    ∀ a ∈ alignCentres v, centreLine v a := by
  decide

/-- All centre pairs but the three at the finders. -/
theorem mem_alignmentCentres {v a b : Nat} (h1 : 1 ≤ v) (h40 : v < 41) :
    (a, b) ∈ alignmentCentres v (4 * v + 17) ↔ (a ∈ alignCentres v ∧ b ∈ alignCentres v) ∧
      ¬ atFinder v a b := by
  rw [alignmentCentres, List.mem_filter, List.mem_product]
  refine and_congr_right fun ⟨ha, hb⟩ => ?_
  obtain ⟨-, -, hall⟩ := alignCentres_table v h40
  have ha := hall a ha
  have hb := hall b hb
  simp [overlapsZone, meetsZone]
  omega

/-- What is known of the centre of a drawn alignment pattern. -/
theorem alignmentCentres_place {v a b : Nat} (h1 : 1 ≤ v) (h40 : v < 41)
    (h : (a, b) ∈ alignmentCentres v (4 * v + 17)) : centreLine v a ∧ centreLine v b ∧ ¬ atFinder v a b := by
  obtain ⟨⟨ha, hb⟩, hne⟩ := (mem_alignmentCentres h1 h40).mp h
  obtain ⟨-, -, hall⟩ := alignCentres_table v h40
  exact ⟨hall a ha, hall b hb, hne⟩

/-- A pattern lies within two of its centre. -/
theorem alignDraws_box {v a b r c : Nat} {w : Bool} (h1 : 1 ≤ v) (h40 : v < 41)
    (hab : (a, b) ∈ alignmentCentres v (4 * v + 17)) (h : (r, c, w) ∈ alignDraws a b) :
    (a ≤ r + 2 ∧ r ≤ a + 2) ∧ b ≤ c + 2 ∧ c ≤ b + 2 := by
  obtain ⟨⟨-, ha⟩, ⟨-, hb⟩, -⟩ := alignmentCentres_place h1 h40 hab
  obtain ⟨i, j, hi, hj, rfl, rfl, -⟩ := mem_alignDraws.mp h
  omega

theorem mem_alignmentDraws {ver dim r c : Nat} {v : Bool} : (r, c, v) ∈ alignmentDraws ver dim ↔
    ∃ a b, (a, b) ∈ alignmentCentres ver dim ∧ (r, c, v) ∈ alignDraws a b := by
  simp [alignmentDraws_eq]

/-- A cell of an alignment pattern lies well inside the symbol in its row or in its column, or near the bottom right
corner. -/
theorem alignmentDraws_place {v r c : Nat} {w : Bool} (h1 : 1 ≤ v) (h40 : v < 41)
    (h : (r, c, w) ∈ alignmentDraws v (4 * v + 17)) :
    (4 ≤ r ∧ r ≤ 4 * v + 12) ∧ (4 ≤ c ∧ c ≤ 4 * v + 12) ∧
      (20 ≤ r ∧ r + 4 ≤ 4 * v ∨ 20 ≤ c ∧ c + 4 ≤ 4 * v ∨ 4 * v + 8 ≤ r ∧ 4 * v + 8 ≤ c) := by
  obtain ⟨a, b, hab, hd⟩ := mem_alignmentDraws.mp h
  obtain ⟨⟨-, ha⟩, ⟨-, hb⟩, hne⟩ := alignmentCentres_place h1 h40 hab
  obtain ⟨i, j, hi, hj, rfl, rfl, -⟩ := mem_alignDraws.mp hd
  rcases ha with rfl | rfl | ha <;> rcases hb with rfl | rfl | hb <;> omega

/-! ## No pattern cell is drawn twice (42_matrix.md R209) -/

theorem drawnCells_finderDraws_nodup (r0 c0 : Nat) : (drawnCells (finderDraws r0 c0)).Nodup := by
  rw [drawnCells, finderDraws, List.map_map]
  refine (squareCells_nodup 7).map fun d e h => ?_
  simp only [Function.comp_apply, Prod.mk.injEq] at h
  exact Prod.ext (by omega) (by omega)

theorem drawnCells_alignDraws_nodup (a b : Nat) : (drawnCells (alignDraws a b)).Nodup := by
  rw [drawnCells, alignDraws, List.map_map]
  refine (squareCells_nodup 5).map fun d e h => ?_
  simp only [Function.comp_apply, Prod.mk.injEq] at h
  exact Prod.ext (by omega) (by omega)

theorem drawnCells_separatorDraws_nodup (r0 c0 : Nat) : (drawnCells (separatorDraws r0 c0)).Nodup := by
  rw [separatorDraws_eq, drawnCells_append, drawnCells, drawnCells, List.map_map, List.map_map]
  refine List.Nodup.append ?_ ?_ ?_
  · exact List.Nodup.map (fun c d h => by simpa using h) List.nodup_range'
  · exact (List.Nodup.filter _ List.nodup_range').map fun c d h => by simpa using h
  · rintro ⟨r, c⟩ h1 h2
    simp at h1 h2
    omega

theorem drawnCells_cornerDraws_nodup (r0 c0 : Nat) : (drawnCells (cornerDraws r0 c0)).Nodup := by
  rw [cornerDraws, drawnCells_append]
  refine (drawnCells_finderDraws_nodup _ _).append (drawnCells_separatorDraws_nodup _ _) ?_
  rintro ⟨r, c⟩ h1 h2
  obtain ⟨_, h1⟩ := mem_drawnCells.mp h1
  obtain ⟨_, h2⟩ := mem_drawnCells.mp h2
  obtain ⟨i, j, hi, hj, rfl, rfl, -⟩ := mem_finderDraws.mp h1
  obtain ⟨-, h2 | h2⟩ := mem_separatorDraws.mp h2 <;> rw [separatorLine] at h2 <;> split_ifs at h2 <;> omega

theorem drawnCells_formatDraws (micro : Bool) (dim word : Nat) :
    drawnCells (formatDraws micro dim word) = (List.range 15).flatMap (fmtCells micro dim) := by
  simp [drawnCells, formatDraws, List.map_flatMap, Function.comp_def]

theorem drawnCells_versionDraws {ver : Nat} (hver : 7 ≤ ver) (dim word : Nat) :
    drawnCells (versionDraws false ver dim word) = (List.range 18).flatMap (verCells dim) := by
  simp [drawnCells, versionDraws, hver, List.map_flatMap, Function.comp_def]

theorem drawnCells_formatDraws_nodup {dim : Nat} (hdim : 21 ≤ dim) (word : Nat) :
    (drawnCells (formatDraws false dim word)).Nodup := by
  rw [drawnCells_formatDraws]
  refine nodup_flatMap_range (fun b hb => ?_) ?_
  · simp only [fmtCells, Bool.false_eq_true, if_false]
    split_ifs <;> simp <;> omega
  · rintro b hb d hd ⟨r, c⟩ h1 h2
    rcases fmtCells_place hdim hb h1 with h1 | h1 | h1 | h1 <;>
      rcases fmtCells_place hdim hd h2 with h2 | h2 | h2 | h2 <;> omega

theorem drawnCells_versionDraws_nodup {ver dim : Nat} (hdim : 4 * ver + 17 = dim) (word : Nat) :
    (drawnCells (versionDraws false ver dim word)).Nodup := by
  by_cases hver : 7 ≤ ver
  · rw [drawnCells_versionDraws hver]
    refine nodup_flatMap_range (fun b hb => by simp [verCells]; omega) ?_
    rintro b hb d hd ⟨r, c⟩ h1 h2
    have h1 := (mem_verCells (by omega)).mp h1
    have h2 := (mem_verCells (by omega)).mp h2
    omega
  · simp [versionDraws, hver, drawnCells]

theorem drawnCells_alignmentDraws_nodup {v : Nat} (h1 : 1 ≤ v) (h40 : v < 41) :
    (drawnCells (alignmentDraws v (4 * v + 17))).Nodup := by
  obtain ⟨hnd, happart, -⟩ := alignCentres_table v h40
  rw [alignmentDraws_eq, drawnCells, List.map_flatMap]
  have hpairs : (alignmentCentres v (4 * v + 17)).Nodup := (hnd.product hnd).filter _
  refine List.nodup_flatMap.mpr ⟨fun p _ => drawnCells_alignDraws_nodup _ _, hpairs.imp_of_mem ?_⟩
  rintro ⟨a, b⟩ ⟨a', b'⟩ hp hp' hne ⟨r, c⟩ h h'
  obtain ⟨_, h⟩ := mem_drawnCells.mp h
  obtain ⟨_, h'⟩ := mem_drawnCells.mp h'
  obtain ⟨hr, hc⟩ := alignDraws_box h1 h40 hp h
  obtain ⟨hr', hc'⟩ := alignDraws_box h1 h40 hp' h'
  obtain ⟨⟨hma, hmb⟩, -⟩ := (mem_alignmentCentres h1 h40).mp hp
  obtain ⟨⟨hma', hmb'⟩, -⟩ := (mem_alignmentCentres h1 h40).mp hp'
  have hrow : a = a' := by have := happart a hma a' hma'; omega
  have hcol : b = b' := by have := happart b hmb b' hmb'; omega
  exact hne (Prod.ext hrow hcol)

/-! ## The patterns of a Normal symbol as seven families -/

/-- The families of patterns RESERVE draws before the timing lines of a Normal symbol, in order. -/
def patternFamily (ver dim : Nat) : Nat → List Draw
  | 0 => alignmentDraws ver dim
  | 1 => cornerDraws 0 0
  | 2 => cornerDraws 0 (dim - 7)
  | 3 => cornerDraws (dim - 7) 0
  | 4 => formatDraws false dim 0
  | 5 => [(dim - 8, 8, true)]
  | 6 => versionDraws false ver dim 0
  | _ => []

theorem patternDraws_normal {c : SymbolConfig} (h : c.micro = false) :
    patternDraws c = (List.range 7).flatMap (patternFamily c.ver c.dim) := by
  simp [patternDraws, h, List.range_succ, patternFamily, cornerDraws]

/-- The number of the one family that can draw a cell. -/
def patternZone (dim r c : Nat) : Nat :=
  if r < 8 ∧ c < 8 then 1
  else if r < 8 ∧ dim ≤ c + 8 then 2
  else if dim ≤ r + 8 ∧ c < 8 then 3
  else if c = 8 ∧ r + 8 = dim then 5
  else if r = 8 ∧ c ≠ 6 ∧ (c ≤ 8 ∨ dim ≤ c + 8) ∨ c = 8 ∧ r ≠ 6 ∧ (r ≤ 8 ∨ dim ≤ r + 7) then 4
  else if r < 6 ∧ dim ≤ c + 11 ∨ c < 6 ∧ dim ≤ r + 11 then 6
  else 0

/-- The families lie inside the symbol and in zones apart. -/
theorem patternFamily_zone {v i r c : Nat} {w : Bool} (h1 : 1 ≤ v) (h40 : v < 41)
    (h : (r, c, w) ∈ patternFamily v (4 * v + 17) i) :
    (r < 4 * v + 17 ∧ c < 4 * v + 17) ∧ patternZone (4 * v + 17) r c = i := by
  match i with
  | 0 =>
    have hplace := alignmentDraws_place h1 h40 h
    refine ⟨by omega, ?_⟩
    rw [patternZone, if_neg (by omega), if_neg (by omega), if_neg (by omega), if_neg (by omega), if_neg (by omega),
      if_neg (by omega)]
  | 1 =>
    simp only [patternFamily] at h
    have hbox := cornerDraws_box h
    exact ⟨by omega, if_pos (by omega)⟩
  | 2 =>
    simp only [patternFamily] at h
    have hbox := cornerDraws_box h
    refine ⟨by omega, ?_⟩
    rw [patternZone, if_neg (by omega), if_pos (by omega)]
  | 3 =>
    simp only [patternFamily] at h
    have hbox := cornerDraws_box h
    refine ⟨by omega, ?_⟩
    rw [patternZone, if_neg (by omega), if_neg (by omega), if_pos (by omega)]
  | 4 =>
    obtain ⟨-, b, hb, hcell⟩ := mem_formatDraws.mp h
    have hrc := fmtCells_place (by omega) hb hcell
    refine ⟨by omega, ?_⟩
    rw [patternZone, if_neg (by omega), if_neg (by omega), if_neg (by omega), if_neg (by omega), if_pos (by omega)]
  | 5 =>
    simp only [patternFamily, List.mem_singleton, Prod.mk.injEq] at h
    refine ⟨by omega, ?_⟩
    rw [patternZone, if_neg (by omega), if_neg (by omega), if_neg (by omega), if_pos (by omega)]
  | 6 =>
    obtain ⟨-, hver, b, hb, hcell⟩ := mem_versionDraws.mp h
    have hrc := (mem_verCells (by omega)).mp hcell
    refine ⟨by omega, ?_⟩
    rw [patternZone, if_neg (by omega), if_neg (by omega), if_neg (by omega), if_neg (by omega), if_neg (by omega),
      if_pos (by omega)]
  | _ + 7 => simp [patternFamily] at h

theorem patternFamily_nodup {v : Nat} (h1 : 1 ≤ v) (h40 : v < 41) (i : Nat) :
    (drawnCells (patternFamily v (4 * v + 17) i)).Nodup := by
  match i with
  | 0 => exact drawnCells_alignmentDraws_nodup h1 h40
  | 1 => exact drawnCells_cornerDraws_nodup 0 0
  | 2 => exact drawnCells_cornerDraws_nodup 0 (4 * v + 17 - 7)
  | 3 => exact drawnCells_cornerDraws_nodup (4 * v + 17 - 7) 0
  | 4 => exact drawnCells_formatDraws_nodup (by omega) 0
  | 5 => exact List.nodup_singleton _
  | 6 => exact drawnCells_versionDraws_nodup rfl 0
  | _ + 7 => exact List.nodup_nil

end Sys2Proof.Machine
end

section
/-!
PROOFS. RESERVE: its draws never name a cell twice, so the planes it leaves hold exactly the drawn modules; its errors,
its frame and the function patterns.
-/

namespace Sys2Proof.Machine

/-! ## Legal symbols by type (10_state.md R32) -/

theorem normal_bounds {c : SymbolConfig} (hv : c.versionOK = true) (hm : c.micro = false) :
    1 ≤ c.ver ∧ c.ver < 41 ∧ c.dim = 4 * c.ver + 17 := by
  have h := (versionOK_iff c).mp hv
  simp only [hm, true_and, Bool.false_eq_true, false_and, or_false] at h
  simp only [SymbolConfig.dim, SymbolConfig.ver, hm, Bool.false_eq_true, if_false]
  omega

theorem micro_bounds {c : SymbolConfig} (hv : c.versionOK = true) (hm : c.micro = true) :
    1 ≤ c.ver ∧ c.ver ≤ 4 ∧ c.dim = 2 * c.ver + 9 := by
  have h := (versionOK_iff c).mp hv
  simp only [hm, true_and, Bool.true_eq_false, false_and, false_or] at h
  simp only [SymbolConfig.dim, SymbolConfig.ver, hm, if_true]
  omega

theorem inGrid_of_symbol {c : SymbolConfig} (hv : c.versionOK = true) {r k : Nat} (hr : r < c.dim) (hk : k < c.dim) :
    inGrid r k = true := by
  obtain ⟨-, -, hdim⟩ := dim_bounds hv
  simp only [inGrid, decide_eq_true_eq, gridSide]
  omega

/-! ## The draws before the timing lines -/

theorem patternDraws_micro {c : SymbolConfig} (h : c.micro = true) :
    patternDraws c = cornerDraws 0 0 ++ formatDraws true 0 0 := by
  rw [patternDraws, h]
  rfl

/-- The patterns of a Micro symbol, which are the same in every version: 79 cells, none drawn twice, and none on the
timing lines. -/
theorem microPatterns_table : (drawnCells (cornerDraws 0 0 ++ formatDraws true 0 0)).Nodup ∧
    (cornerDraws 0 0 ++ formatDraws true 0 0).length = 79 ∧
    ∀ d ∈ cornerDraws 0 0 ++ formatDraws true 0 0, (d.1 < 9 ∧ d.2.1 < 9) ∧ (d.1 = 0 → d.2.1 < 8) ∧
      (d.2.1 = 0 → d.1 < 8) := by
  decide

section
variable {c : SymbolConfig} (hv : c.versionOK = true)
include hv

theorem patternDraws_in_symbol {r k : Nat} {w : Bool} (h : (r, k, w) ∈ patternDraws c) : r < c.dim ∧ k < c.dim := by
  cases hm : c.micro with
  | true =>
    obtain ⟨-, hlow, -⟩ := dim_bounds hv
    rw [patternDraws_micro hm] at h
    obtain ⟨-, -, hplace⟩ := microPatterns_table
    have := hplace _ h
    simp only at this
    omega
  | false =>
    obtain ⟨h1, h40, hdim⟩ := normal_bounds hv hm
    rw [patternDraws_normal hm, hdim] at h
    obtain ⟨i, -, h⟩ := List.mem_flatMap.mp h
    rw [hdim]
    exact (patternFamily_zone h1 h40 h).1

theorem drawnCells_patternDraws_nodup : (drawnCells (patternDraws c)).Nodup := by
  cases hm : c.micro with
  | true =>
    rw [patternDraws_micro hm]
    exact microPatterns_table.1
  | false =>
    obtain ⟨h1, h40, hdim⟩ := normal_bounds hv hm
    rw [patternDraws_normal hm, hdim, drawnCells, List.map_flatMap]
    refine nodup_flatMap_range (fun i _ => patternFamily_nodup h1 h40 i) ?_
    rintro i - j - ⟨r, k⟩ hi hj
    obtain ⟨_, hi⟩ := mem_drawnCells.mp hi
    obtain ⟨_, hj⟩ := mem_drawnCells.mp hj
    exact (patternFamily_zone h1 h40 hi).2.symm.trans (patternFamily_zone h1 h40 hj).2

end

/-! ## The timing lines (42_matrix.md R208) -/

/-- The row of the horizontal timing line and the column of the vertical one. -/
def timingIndex (micro : Bool) : Nat := if micro then 0 else 6

/-- The end of the timing lines, not included. -/
def timingEnd (micro : Bool) (dim : Nat) : Nat := if micro then dim else dim - 8

theorem timingRow_eq (micro : Bool) (dim : Nat) : timingRow micro dim =
    (List.range' 8 (timingEnd micro dim - 8)).map fun k => (timingIndex micro, k, timingValue k) := by
  cases micro <;> simp [timingRow, timingEnd, timingIndex, List.range'_eq_map_range, Nat.sub_sub]

theorem timingColumn_eq (micro : Bool) (dim : Nat) : timingColumn micro dim =
    (List.range' 8 (timingEnd micro dim - 8)).map fun k => (k, timingIndex micro, timingValue k) := by
  cases micro <;> simp [timingColumn, timingEnd, timingIndex, List.range'_eq_map_range, Nat.sub_sub]

theorem mem_timingRow {micro : Bool} {dim r k : Nat} {w : Bool} : (r, k, w) ∈ timingRow micro dim ↔
    r = timingIndex micro ∧ (8 ≤ k ∧ k < timingEnd micro dim) ∧ w = timingValue k := by
  simp only [timingRow_eq, List.mem_map, List.mem_range'_1, Prod.mk.injEq]
  constructor
  · rintro ⟨_, hk, rfl, rfl, rfl⟩
    exact ⟨rfl, by omega, rfl⟩
  · rintro ⟨rfl, hk, rfl⟩
    exact ⟨k, by omega, rfl, rfl, rfl⟩

theorem mem_timingColumn {micro : Bool} {dim r k : Nat} {w : Bool} : (r, k, w) ∈ timingColumn micro dim ↔
    k = timingIndex micro ∧ (8 ≤ r ∧ r < timingEnd micro dim) ∧ w = timingValue r := by
  simp only [timingColumn_eq, List.mem_map, List.mem_range'_1, Prod.mk.injEq]
  constructor
  · rintro ⟨_, hk, rfl, rfl, rfl⟩
    exact ⟨rfl, by omega, rfl⟩
  · rintro ⟨rfl, hr, rfl⟩
    exact ⟨r, by omega, rfl, rfl, rfl⟩

theorem drawnCells_timingRow_nodup (micro : Bool) (dim : Nat) : (drawnCells (timingRow micro dim)).Nodup := by
  rw [timingRow_eq, drawnCells, List.map_map]
  exact List.Nodup.map (fun k l h => by simpa using h) List.nodup_range'

theorem drawnCells_timingColumn_nodup (micro : Bool) (dim : Nat) : (drawnCells (timingColumn micro dim)).Nodup := by
  rw [timingColumn_eq, drawnCells, List.map_map]
  exact List.Nodup.map (fun k l h => by simpa using h) List.nodup_range'

theorem timingIndex_le (micro : Bool) : timingIndex micro ≤ 6 := by cases micro <;> decide

theorem timingEnd_le (micro : Bool) (dim : Nat) : timingEnd micro dim ≤ dim := by
  rw [timingEnd]
  split_ifs <;> omega

/-- The timing lines would cross in the finder, which neither enters. -/
theorem timingLines_disjoint (micro : Bool) (dim : Nat) :
    (drawnCells (timingRow micro dim)).Disjoint (drawnCells (timingColumn micro dim)) := by
  rintro ⟨r, k⟩ hrow hcol
  obtain ⟨_, hrow⟩ := mem_drawnCells.mp hrow
  obtain ⟨_, hcol⟩ := mem_drawnCells.mp hcol
  obtain ⟨hr, -⟩ := mem_timingRow.mp hrow
  obtain ⟨-, hr', -⟩ := mem_timingColumn.mp hcol
  have := timingIndex_le micro
  omega

/-- A timing line is drawn where no earlier draw is. -/
theorem timingDraws_eq (ds line : List Draw) (hgrid : ∀ d ∈ line, inGrid d.1 d.2.1 = true) :
    timingDraws (Plane.blank.draw (reserving ds)) line =
      line.filter fun d => decide ((d.1, d.2.1) ∉ drawnCells ds) := by
  refine List.filter_congr fun d hd => ?_
  have hcell := cell_reserving_iff ds (fun _ => false) d.1 d.2.1
  rw [hgrid d hd] at hcell
  by_cases hmem : (d.1, d.2.1) ∈ drawnCells ds <;> simp_all

theorem drawnCells_filter_nodup {ds : List Draw} (h : (drawnCells ds).Nodup) (p : Draw → Bool) :
    (drawnCells (ds.filter p)).Nodup :=
  h.sublist (List.filter_sublist.map _)

/-! ## All of RESERVE's draws -/

section
variable {c : SymbolConfig} (hv : c.versionOK = true)
include hv

theorem inGrid_timingRow {d : Draw} (hd : d ∈ timingRow c.micro c.dim) : inGrid d.1 d.2.1 = true := by
  obtain ⟨-, hlow, -⟩ := dim_bounds hv
  have hidx := timingIndex_le c.micro
  have hend := timingEnd_le c.micro c.dim
  obtain ⟨r, k, w⟩ := d
  obtain ⟨rfl, hk, -⟩ := mem_timingRow.mp hd
  exact inGrid_of_symbol hv (show timingIndex c.micro < c.dim by omega) (show k < c.dim by omega)

theorem inGrid_timingColumn {d : Draw} (hd : d ∈ timingColumn c.micro c.dim) : inGrid d.1 d.2.1 = true := by
  obtain ⟨-, hlow, -⟩ := dim_bounds hv
  have hidx := timingIndex_le c.micro
  have hend := timingEnd_le c.micro c.dim
  obtain ⟨r, k, w⟩ := d
  obtain ⟨rfl, hr, -⟩ := mem_timingColumn.mp hd
  exact inGrid_of_symbol hv (show r < c.dim by omega) (show timingIndex c.micro < c.dim by omega)

/-- RESERVE draws the patterns, then what they leave of the two timing lines. -/
theorem reserveDraws_eq : reserveDraws c = patternDraws c ++
    ((timingRow c.micro c.dim ++ timingColumn c.micro c.dim).filter
      fun d => decide ((d.1, d.2.1) ∉ drawnCells (patternDraws c))) := by
  have hcolumn {d : Draw} (hd : d ∈ timingColumn c.micro c.dim) (p : Draw → Bool) :
      (d.1, d.2.1) ∉ drawnCells ((timingRow c.micro c.dim).filter p) := fun hmem =>
    timingLines_disjoint _ _ ((List.filter_sublist.map _).subset hmem) (mem_drawnCells_of_mem hd)
  rw [reserveDraws, timingDraws_eq _ _ fun d => inGrid_timingRow hv, timingDraws_eq _ _ fun d => inGrid_timingColumn hv,
    List.filter_append, List.append_assoc]
  congr 2
  refine List.filter_congr fun d hd => ?_
  simp [hcolumn hd]

theorem mem_reserveDraws {r k : Nat} {w : Bool} : (r, k, w) ∈ reserveDraws c ↔ (r, k, w) ∈ patternDraws c ∨
    ((r, k, w) ∈ timingRow c.micro c.dim ∨ (r, k, w) ∈ timingColumn c.micro c.dim) ∧
      (r, k) ∉ drawnCells (patternDraws c) := by
  simp [reserveDraws_eq hv, or_and_right]

theorem drawnCells_reserveDraws_nodup : (drawnCells (reserveDraws c)).Nodup := by
  rw [reserveDraws_eq hv, drawnCells_append]
  refine (drawnCells_patternDraws_nodup hv).append (drawnCells_filter_nodup ?_ _) ?_
  · rw [drawnCells_append]
    exact (drawnCells_timingRow_nodup _ _).append (drawnCells_timingColumn_nodup _ _) (timingLines_disjoint _ _)
  · rintro ⟨r, k⟩ hpat htim
    obtain ⟨_, htim⟩ := mem_drawnCells.mp htim
    simpa [hpat] using (List.mem_filter.mp htim).2

theorem reserveDraws_in_symbol {r k : Nat} (h : (r, k) ∈ drawnCells (reserveDraws c)) : r < c.dim ∧ k < c.dim := by
  obtain ⟨-, hlow, -⟩ := dim_bounds hv
  have hidx := timingIndex_le c.micro
  have hend := timingEnd_le c.micro c.dim
  obtain ⟨w, h⟩ := mem_drawnCells.mp h
  obtain h | ⟨h | h, -⟩ := (mem_reserveDraws hv).mp h
  · exact patternDraws_in_symbol hv h
  · obtain ⟨hr, hk, -⟩ := mem_timingRow.mp h
    omega
  · obtain ⟨hk, hr, -⟩ := mem_timingColumn.mp h
    omega

end

/-! ## The grid RESERVE leaves -/

section
variable {s : State} (hv : s.config.versionOK = true)
include hv

/-- A cell is reserved exactly if RESERVE draws it. -/
theorem resAt_reserve_iff (r k : Nat) : (completeOk (reserveWrites s)).resAt r k = true ↔
    (r, k) ∈ drawnCells (reserveDraws s.config) := by
  refine (cell_reserving_iff _ _ r k).trans (and_iff_right_of_imp fun h => ?_)
  obtain ⟨hr, hk⟩ := reserveDraws_in_symbol hv h
  exact inGrid_of_symbol hv hr hk

/-- A drawn cell holds the drawn module. -/
theorem cell_reserve {r k : Nat} {w : Bool} (h : (r, k, w) ∈ reserveDraws s.config) :
    (completeOk (reserveWrites s)).resAt r k = true ∧ (completeOk (reserveWrites s)).modAt r k = w := by
  have hmem := mem_drawnCells_of_mem h
  obtain ⟨hr, hk⟩ := reserveDraws_in_symbol hv hmem
  exact ⟨(resAt_reserve_iff hv r k).mpr hmem,
    cell_draw_of_nodup (drawnCells_reserveDraws_nodup hv) (inGrid_of_symbol hv hr hk) h _ _⟩

/-- Every other cell is free and Light. -/
theorem modAt_reserve_free {r k : Nat} (h : (completeOk (reserveWrites s)).resAt r k = false) :
    (completeOk (reserveWrites s)).modAt r k = false := by
  have hmem : (r, k) ∉ drawnCells (reserveDraws s.config) := by
    rw [← resAt_reserve_iff hv, h]
    simp
  exact (cell_draw_of_not_drawn hmem _ _).trans (cell_blank _ _ _)

theorem resAt_reserve_outside {r k : Nat} (h : ¬ (r < s.config.dim ∧ k < s.config.dim)) :
    (completeOk (reserveWrites s)).resAt r k = false := by
  rw [← Bool.not_eq_true, resAt_reserve_iff hv]
  exact fun hmem => h (reserveDraws_in_symbol hv hmem)

end

theorem exec_reserve_ok {s : State} (h : s.configLegal) :
    exec .reserve s = .next (completeOk (reserveWrites s)) := by
  rw [exec_reserve, reserveCheck, (check_eq_none_iff _).mpr h]

/-- Outside GRID a byte of storage depends on the memory and the epoch only. -/
theorem byteAt_congr_of_not_grid {s t : State} (hmem : t.mem = s.mem) (he : t.epoch = s.epoch) {a : Nat}
    (ha : regionOf a ≠ .grid) : t.byteAt a = s.byteAt a := by
  simp only [State.byteAt, memByte_congr hmem he]
  cases hr : regionOf a <;> simp_all

/-- Settles O29: what RESERVE draws is drawn in a cleared plane and inside the symbol. -/
theorem reserveClearsAndDrawsTheGrid : Obligations.ReserveClearsAndDrawsTheGrid := by
  refine fun s => ⟨configErrorsFirst_of_check (i := .reserve) fun e he => he, fun hlegal => ?_⟩
  have ⟨hv, _⟩ := hlegal
  have hmem : (completeOk (reserveWrites s)).mem = s.mem := rfl
  refine ⟨_, exec_reserve_ok hlegal, rfl, fun a ha => byteAt_congr_of_not_grid hmem rfl ha, fun r k h => ?_,
    fun r k => modAt_reserve_free hv⟩
  have hres := resAt_reserve_outside hv h
  exact ⟨modAt_reserve_free hv hres, hres⟩

end Sys2Proof.Machine
end

section
/-!
PROOFS. The function patterns RESERVE leaves: every cell the rules list is among its draws, and where an alignment
pattern lies on a timing line it holds the timing value.
-/

namespace Sys2Proof.Machine

/-! ## What the patterns draw, family by family -/

/-- The corners of the finders (42_matrix.md R203). -/
def finderCorners (c : SymbolConfig) : List (Nat × Nat) :=
  if c.micro then [(0, 0)] else [(0, 0), (0, c.dim - 7), (c.dim - 7, 0)]

/-- The two strips of a separator, the shared cell in both. -/
theorem mem_cornerDraws_strips (r0 c0 : Nat) {k : Nat} (hk : k < 8) :
    (separatorLine r0, c0 - 1 + k, false) ∈ cornerDraws r0 c0 ∧
    (r0 - 1 + k, separatorLine c0, false) ∈ cornerDraws r0 c0 := by
  refine ⟨List.mem_append_right _ (mem_separatorDraws.mpr ⟨rfl, .inl ⟨rfl, by omega, by omega⟩⟩),
    List.mem_append_right _ (mem_separatorDraws.mpr ⟨rfl, ?_⟩)⟩
  by_cases h : r0 - 1 + k = separatorLine r0
  · exact .inl ⟨h, by rw [separatorLine]; split_ifs <;> omega, by rw [separatorLine]; split_ifs <;> omega⟩
  · exact .inr ⟨rfl, by omega, by omega, h⟩

theorem mem_patternDraws_of_family {c : SymbolConfig} {i : Nat} {d : Draw} (hm : c.micro = false) (hi : i < 7)
    (h : d ∈ patternFamily c.ver c.dim i) : d ∈ patternDraws c := by
  rw [patternDraws_normal hm]
  exact List.mem_flatMap.mpr ⟨i, List.mem_range.mpr hi, h⟩

theorem mem_patternDraws_of_corner {c : SymbolConfig} {p : Nat × Nat} (hp : p ∈ finderCorners c) {d : Draw}
    (h : d ∈ cornerDraws p.1 p.2) : d ∈ patternDraws c := by
  rw [finderCorners] at hp
  cases hm : c.micro with
  | true =>
    obtain rfl : p = (0, 0) := by simpa [hm] using hp
    rw [patternDraws_micro hm]
    exact List.mem_append_left _ h
  | false =>
    simp only [hm, Bool.false_eq_true, if_false, List.mem_cons, List.not_mem_nil, or_false] at hp
    obtain rfl | rfl | rfl := hp
    · exact mem_patternDraws_of_family (i := 1) hm (by decide) h
    · exact mem_patternDraws_of_family (i := 2) hm (by decide) h
    · exact mem_patternDraws_of_family (i := 3) hm (by decide) h

theorem mem_patternDraws_of_format {c : SymbolConfig} {d : Draw} (h : d ∈ formatDraws c.micro c.dim 0) :
    d ∈ patternDraws c := by
  cases hm : c.micro with
  | true =>
    rw [hm] at h
    rw [patternDraws_micro hm]
    exact List.mem_append_right _ h
  | false =>
    rw [hm] at h
    exact mem_patternDraws_of_family (i := 4) hm (by decide) h

/-- The map of 42_matrix.md R205 is the list of its cells. -/
theorem formatCellTable_eq {micro : Bool} {dim : Nat} (hdim : micro = false → 21 ≤ dim) :
    formatCellTable micro dim = (List.range 15).map (fmtCells micro dim) := by
  cases micro with
  | true => rfl
  | false =>
    have := hdim rfl
    simp [formatCellTable, List.range_succ, fmtCells]
    omega

/-- The map of 42_matrix.md R207 is the list of its cells. -/
theorem versionCellTable_eq {dim : Nat} (hdim : 21 ≤ dim) :
    versionCellTable dim = (List.range 18).map (verCells dim) := by
  simp [versionCellTable, List.range_succ, verCells]
  omega

theorem mem_patternDraws_of_formatCellTable {c : SymbolConfig} (hv : c.versionOK = true) {k : Nat × Nat}
    (h : k ∈ (formatCellTable c.micro c.dim).flatten) : (k.1, k.2, false) ∈ patternDraws c := by
  rw [formatCellTable_eq fun hm => by have := normal_bounds hv hm; omega, ← List.flatMap_def] at h
  obtain ⟨b, hb, h⟩ := List.mem_flatMap.mp h
  exact mem_patternDraws_of_format (mem_formatDraws.mpr ⟨rfl, b, List.mem_range.mp hb, h⟩)

theorem mem_patternDraws_of_versionCellTable {c : SymbolConfig} (hv : c.versionOK = true) (hm : c.micro = false)
    (hver : 7 ≤ c.ver) {k : Nat × Nat} (h : k ∈ (versionCellTable c.dim).flatten) :
    (k.1, k.2, false) ∈ patternDraws c := by
  have hbounds := normal_bounds hv hm
  rw [versionCellTable_eq (by omega), ← List.flatMap_def] at h
  obtain ⟨b, hb, h⟩ := List.mem_flatMap.mp h
  exact mem_patternDraws_of_family (i := 6) hm (by decide)
    (mem_versionDraws.mpr ⟨rfl, hver, b, List.mem_range.mp hb, h⟩)

/-! ## Alignment patterns on the timing lines (42_matrix.md R208) -/

/-- The middle row of an alignment pattern alternates, Dark at its ends and in the middle. -/
theorem align_middle_row : ∀ j < 5, (!(max (gap 2 2) (gap j 2) == 1)) = timingValue j := by decide

/-- An alignment pattern and its reflection. -/
theorem alignmentDraws_symm {v r k : Nat} {w : Bool} (h1 : 1 ≤ v) (h40 : v < 41)
    (h : (r, k, w) ∈ alignmentDraws v (4 * v + 17)) : (k, r, w) ∈ alignmentDraws v (4 * v + 17) := by
  obtain ⟨a, b, hab, hd⟩ := mem_alignmentDraws.mp h
  obtain ⟨⟨ha, hb⟩, hne⟩ := (mem_alignmentCentres h1 h40).mp hab
  obtain ⟨i, j, hi, hj, hr, hk, hw⟩ := mem_alignDraws.mp hd
  refine mem_alignmentDraws.mpr ⟨b, a, (mem_alignmentCentres h1 h40).mpr ⟨⟨hb, ha⟩, by omega⟩, ?_⟩
  exact mem_alignDraws.mpr ⟨j, i, hj, hi, hk, hr, by rw [hw, max_comm]⟩

/-- On the horizontal timing line an alignment pattern is one centred on the line, and it holds the timing value. -/
theorem alignmentDraws_timing {v k : Nat} {w : Bool} (h1 : 1 ≤ v) (h40 : v < 41)
    (h : (6, k, w) ∈ alignmentDraws v (4 * v + 17)) :
    w = timingValue k ∧ ∃ b ∈ alignCentres v, (b ≠ 6 ∧ b ≠ 4 * v + 10) ∧ b ≤ k + 2 ∧ k ≤ b + 2 := by
  obtain ⟨a, b, hab, hd⟩ := mem_alignmentDraws.mp h
  obtain ⟨⟨-, hb⟩, -⟩ := (mem_alignmentCentres h1 h40).mp hab
  obtain ⟨⟨-, ha⟩, ⟨heven, hb6⟩, hne⟩ := alignmentCentres_place h1 h40 hab
  obtain ⟨i, j, hi, hj, hr, hk, rfl⟩ := mem_alignDraws.mp hd
  obtain rfl : i = 2 := by omega
  refine ⟨?_, b, hb, by omega, by omega, by omega⟩
  rw [align_middle_row j hj, timingValue, timingValue, show k % 2 = j % 2 by omega]

/-- Away from the finders only alignment patterns reach the timing lines. -/
theorem patternDraws_timing_family {c : SymbolConfig} (hv : c.versionOK = true) (hm : c.micro = false) {r k : Nat}
    {w : Bool} (h : (r, k, w) ∈ patternDraws c)
    (hline : r = 6 ∧ 8 ≤ k ∧ k + 8 < c.dim ∨ k = 6 ∧ 8 ≤ r ∧ r + 8 < c.dim) :
    (r, k, w) ∈ alignmentDraws c.ver c.dim := by
  obtain ⟨h1, h40, hdim⟩ := normal_bounds hv hm
  rw [patternDraws_normal hm, hdim] at h
  obtain ⟨i, -, h⟩ := List.mem_flatMap.mp h
  obtain ⟨-, hzone⟩ := patternFamily_zone h1 h40 h
  rw [patternZone, if_neg (by omega), if_neg (by omega), if_neg (by omega), if_neg (by omega), if_neg (by omega),
    if_neg (by omega)] at hzone
  subst hzone
  rwa [hdim]

/-- Where a pattern lies on a timing line it holds the timing value. -/
theorem patternDraws_timing_value {c : SymbolConfig} (hv : c.versionOK = true) {k : Nat} (h8 : 8 ≤ k)
    (hend : k < timingEnd c.micro c.dim) {w : Bool} :
    ((timingIndex c.micro, k, w) ∈ patternDraws c → w = timingValue k) ∧
    ((k, timingIndex c.micro, w) ∈ patternDraws c → w = timingValue k) := by
  cases hm : c.micro with
  | true =>
    obtain ⟨-, -, hplace⟩ := microPatterns_table
    rw [patternDraws_micro hm]
    refine ⟨fun h => ?_, fun h => ?_⟩ <;> have := hplace _ h <;> simp [timingIndex] at this <;> omega
  | false =>
    obtain ⟨h1, h40, hdim⟩ := normal_bounds hv hm
    simp only [timingEnd, hm, Bool.false_eq_true, if_false] at hend
    refine ⟨fun h => ?_, fun h => ?_⟩
    · have halign := patternDraws_timing_family hv hm h (.inl ⟨rfl, h8, by omega⟩)
      rw [hdim] at halign
      exact (alignmentDraws_timing h1 h40 halign).1
    · have halign := patternDraws_timing_family hv hm h (.inr ⟨rfl, h8, by omega⟩)
      rw [hdim] at halign
      exact (alignmentDraws_timing h1 h40 (alignmentDraws_symm h1 h40 halign)).1

/-- Every cell of a timing line is drawn with the timing value. -/
theorem mem_reserveDraws_timing {c : SymbolConfig} (hv : c.versionOK = true) {k : Nat} (h8 : 8 ≤ k)
    (hend : k < timingEnd c.micro c.dim) :
    (timingIndex c.micro, k, timingValue k) ∈ reserveDraws c ∧
    (k, timingIndex c.micro, timingValue k) ∈ reserveDraws c := by
  have hvalue (w : Bool) := patternDraws_timing_value hv h8 hend (w := w)
  refine ⟨(mem_reserveDraws hv).mpr ?_, (mem_reserveDraws hv).mpr ?_⟩
  · by_cases h : (timingIndex c.micro, k) ∈ drawnCells (patternDraws c)
    · obtain ⟨w, hw⟩ := mem_drawnCells.mp h
      exact .inl ((hvalue w).1 hw ▸ hw)
    · exact .inr ⟨.inl (mem_timingRow.mpr ⟨rfl, ⟨h8, hend⟩, rfl⟩), h⟩
  · by_cases h : (k, timingIndex c.micro) ∈ drawnCells (patternDraws c)
    · obtain ⟨w, hw⟩ := mem_drawnCells.mp h
      exact .inl ((hvalue w).2 hw ▸ hw)
    · exact .inr ⟨.inr (mem_timingColumn.mpr ⟨rfl, ⟨h8, hend⟩, rfl⟩), h⟩

/-! ## The patterns in the grid -/

/-- The ring of a finder in the terms of the statement. -/
theorem finder_ring : ∀ i < 7, ∀ j < 7, (!(max (gap i 3) (gap j 3) == 2)) =
    !decide (max ((i : Int) - (3 : Nat)).natAbs ((j : Int) - (3 : Nat)).natAbs = 2) := by decide

/-- The ring of an alignment pattern in the terms of the statement. -/
theorem align_ring : ∀ i < 5, ∀ j < 5, (!(max (gap i 2) (gap j 2) == 1)) =
    !decide (max ((i : Int) - (2 : Nat)).natAbs ((j : Int) - (2 : Nat)).natAbs = 1) := by decide

/-- Settles O30: every cell of the statement is a draw of RESERVE, and a drawn cell holds the drawn module. -/
theorem functionPatternsStandInTheGrid : Obligations.FunctionPatternsStandInTheGrid := by
  intro s hlegal
  have ⟨hv, _⟩ := hlegal
  obtain ⟨-, hlow, -⟩ := dim_bounds hv
  refine ⟨_, exec_reserve_ok hlegal, ?_⟩
  intro dim dark light distance corners
  have hdraw {r k : Nat} {w : Bool} (h : (r, k, w) ∈ patternDraws s.config) :=
    cell_reserve hv ((mem_reserveDraws hv).mpr (.inl h))
  have hring {r k : Nat} {P : Prop} [Decidable P] (h : (r, k, !decide P) ∈ patternDraws s.config) :
      if P then light r k else dark r k := by
    by_cases hP : P <;> simpa [hP] using hdraw h
  have hstrips {p : Nat × Nat} (hp : p ∈ finderCorners s.config) {k : Nat} (hk : k < 8) :
      light (separatorLine p.1) (p.2 - 1 + k) ∧ light (p.1 - 1 + k) (separatorLine p.2) := by
    obtain ⟨hrow, hcol⟩ := mem_cornerDraws_strips p.1 p.2 hk
    exact ⟨hdraw (mem_patternDraws_of_corner hp hrow), hdraw (mem_patternDraws_of_corner hp hcol)⟩
  have htiming {k : Nat} (h8 : 8 ≤ k) (hend : k < timingEnd s.config.micro dim) :
      if k % 2 = 0 then dark (timingIndex s.config.micro) k ∧ dark k (timingIndex s.config.micro)
      else light (timingIndex s.config.micro) k ∧ light k (timingIndex s.config.micro) := by
    obtain ⟨hrow, hcol⟩ := mem_reserveDraws_timing hv h8 hend
    have hcells := And.intro (cell_reserve hv hrow) (cell_reserve hv hcol)
    have heven : timingValue k = true ↔ k % 2 = 0 := by simp [timingValue]
    cases hw : timingValue k with
    | true =>
      rw [hw] at hcells
      rwa [if_pos (heven.mp hw)]
    | false =>
      rw [hw] at hcells
      rwa [if_neg (by rw [← heven, hw]; simp)]
  have htopLeft : (0, 0) ∈ finderCorners s.config := by rw [finderCorners]; split_ifs <;> simp
  refine ⟨fun p hp r k hr hk => ?_, fun k hk => ⟨?_, ?_, fun hm => ?_⟩, fun hm => ?_,
    fun k h8 => ⟨fun hm hend => ?_, fun hm hend => ?_⟩, fun hm a ha b hb hne i j hi hj => ?_,
    fun k hk => ?_, fun hm hver k hk => ?_⟩
  · exact hring (mem_patternDraws_of_corner hp
      (List.mem_append_left _ (mem_finderDraws.mpr ⟨r, k, hr, hk, rfl, rfl, (finder_ring r hr k hk).symm⟩)))
  · simpa [separatorLine] using (hstrips htopLeft hk).1
  · simpa [separatorLine] using (hstrips htopLeft hk).2
  · have hnear : s.config.dim - 7 ≠ 0 := by omega
    have htopRight := hstrips (p := (0, s.config.dim - 7)) (by simp [finderCorners, hm]) hk
    have hbottomLeft := hstrips (p := (s.config.dim - 7, 0)) (by simp [finderCorners, hm]) hk
    simp only [separatorLine, if_neg hnear, if_true, Nat.sub_sub, Nat.zero_sub, Nat.zero_add] at htopRight hbottomLeft
    exact ⟨htopRight.1, htopRight.2, hbottomLeft.1, hbottomLeft.2⟩
  · exact hdraw (mem_patternDraws_of_family (i := 5) hm (by decide) (List.mem_singleton.mpr rfl))
  · simpa [hm, timingIndex] using htiming h8 (by simp only [timingEnd, hm, Bool.false_eq_true, if_false, dim]; omega)
  · simpa [hm, timingIndex] using htiming h8 (by simp only [timingEnd, hm, if_true, dim]; omega)
  · obtain ⟨h1, h40, hdim⟩ := normal_bounds hv hm
    have hcentre : (a, b) ∈ alignmentCentres s.config.ver s.config.dim := by
      rw [hdim, mem_alignmentCentres h1 h40]
      refine ⟨⟨ha, hb⟩, ?_⟩
      simp [dim] at hne
      omega
    exact hring (mem_patternDraws_of_family (i := 0) hm (by decide) (mem_alignmentDraws.mpr
      ⟨a, b, hcentre, mem_alignDraws.mpr ⟨i, j, hi, hj, rfl, rfl, (align_ring i hi j hj).symm⟩⟩))
  · exact hdraw (mem_patternDraws_of_formatCellTable hv hk)
  · exact hdraw (mem_patternDraws_of_versionCellTable hv hm hver hk)

end Sys2Proof.Machine
end

section
/-!
PROOFS. How many cells RESERVE leaves free: the cells it draws, counted family by family, and the table of block
structures.
-/

namespace Sys2Proof.Machine

/-! ## How many cells the families draw -/

@[simp] theorem cornerDraws_length (r0 c0 : Nat) : (cornerDraws r0 c0).length = 64 := by
  have hrow : ((List.range' (r0 - 1) 8).filter fun r => r != separatorLine r0).length = 7 := by
    have hmem : separatorLine r0 ∈ List.range' (r0 - 1) 8 := by
      rw [List.mem_range'_1, separatorLine]
      split_ifs <;> omega
    rw [← List.Nodup.erase_eq_filter List.nodup_range', List.length_erase_of_mem hmem, List.length_range']
  simp [cornerDraws, finderDraws, separatorDraws_eq, hrow, squareCells_length]

@[simp] theorem alignDraws_length (a b : Nat) : (alignDraws a b).length = 25 := by
  simp [alignDraws, squareCells_length]

theorem alignmentDraws_length (ver dim : Nat) :
    (alignmentDraws ver dim).length = 25 * (alignmentCentres ver dim).length := by
  simp [alignmentDraws_eq, List.length_flatMap, Nat.mul_comm]

theorem formatDraws_normal_length (dim word : Nat) : (formatDraws false dim word).length = 30 := by
  simp [formatDraws, List.range_succ, fmtCells]

theorem versionDraws_length (ver dim word : Nat) :
    (versionDraws false ver dim word).length = if 7 ≤ ver then 36 else 0 := by
  by_cases hver : 7 ≤ ver <;> simp [versionDraws, hver, List.length_flatMap, verCells]

theorem patternDraws_normal_length {c : SymbolConfig} (hm : c.micro = false) : (patternDraws c).length =
    25 * (alignmentCentres c.ver c.dim).length + 223 + if 7 ≤ c.ver then 36 else 0 := by
  rw [patternDraws_normal hm]
  simp [List.range_succ, patternFamily, alignmentDraws_length, formatDraws_normal_length, versionDraws_length]
  omega

/-- The centre coordinates between the two outer ones. -/
def innerCentres (ver : Nat) : List Nat := (alignCentres ver).filter fun b => b != 6 && b != 4 * ver + 10

/-- An alignment pattern centred on a timing line covers index k of the line. -/
def alignedAt (ver k : Nat) : Bool := (innerCentres ver).any fun b => decide (b ≤ k + 2) && decide (k ≤ b + 2)

theorem alignedAt_iff (ver k : Nat) : alignedAt ver k = true ↔
    ∃ b ∈ alignCentres ver, (b ≠ 6 ∧ b ≠ 4 * ver + 10) ∧ b ≤ k + 2 ∧ k ≤ b + 2 := by
  simp [alignedAt, innerCentres, and_assoc]

theorem mem_alignCentres_six : ∀ v < 41, alignCentres v ≠ [] → 6 ∈ alignCentres v := by decide

/-- A cell of a timing line is drawn before the line exactly if an alignment pattern covers it. -/
theorem timing_drawn_iff {c : SymbolConfig} (hv : c.versionOK = true) (hm : c.micro = false) {k : Nat} (h8 : 8 ≤ k)
    (hend : k + 8 < c.dim) : ((6, k) ∈ drawnCells (patternDraws c) ↔ alignedAt c.ver k = true) ∧
      ((k, 6) ∈ drawnCells (patternDraws c) ↔ alignedAt c.ver k = true) := by
  obtain ⟨h1, h40, hdim⟩ := normal_bounds hv hm
  have hback (h : alignedAt c.ver k = true) : ∃ w, (6, k, w) ∈ alignmentDraws c.ver (4 * c.ver + 17) := by
    obtain ⟨b, hb, ⟨hb6, hbend⟩, hlo, hhi⟩ := (alignedAt_iff _ _).mp h
    have h6 := mem_alignCentres_six _ h40 (List.ne_nil_of_mem hb)
    exact ⟨_, mem_alignmentDraws.mpr ⟨6, b, (mem_alignmentCentres h1 h40).mpr ⟨⟨h6, hb⟩, by omega⟩,
      mem_alignDraws.mpr ⟨2, k + 2 - b, by omega, by omega, rfl, by omega, rfl⟩⟩⟩
  have hforth {w : Bool} (h : (6, k, w) ∈ alignmentDraws c.ver (4 * c.ver + 17)) : alignedAt c.ver k = true :=
    (alignedAt_iff _ _).mpr (alignmentDraws_timing h1 h40 h).2
  have hfamily {d : Draw} (h : d ∈ alignmentDraws c.ver (4 * c.ver + 17)) : d ∈ patternDraws c :=
    mem_patternDraws_of_family (i := 0) hm (by decide) (hdim ▸ h)
  refine ⟨⟨fun h => ?_, fun h => ?_⟩, ⟨fun h => ?_, fun h => ?_⟩⟩
  · obtain ⟨w, hw⟩ := mem_drawnCells.mp h
    exact hforth (hdim ▸ patternDraws_timing_family hv hm hw (.inl ⟨rfl, h8, hend⟩))
  · obtain ⟨w, hw⟩ := hback h
    exact mem_drawnCells_of_mem (hfamily hw)
  · obtain ⟨w, hw⟩ := mem_drawnCells.mp h
    exact hforth (alignmentDraws_symm h1 h40 (hdim ▸ patternDraws_timing_family hv hm hw (.inr ⟨rfl, h8, hend⟩)))
  · obtain ⟨w, hw⟩ := hback h
    exact mem_drawnCells_of_mem (hfamily (alignmentDraws_symm h1 h40 hw))

/-- What is left to draw of the two timing lines, where `covered` tells which indices of both are drawn. -/
theorem timing_left_length {c : SymbolConfig} {covered : Nat → Bool}
    (h : ∀ k, 8 ≤ k → k < timingEnd c.micro c.dim →
      ((timingIndex c.micro, k) ∈ drawnCells (patternDraws c) ↔ covered k = true) ∧
      ((k, timingIndex c.micro) ∈ drawnCells (patternDraws c) ↔ covered k = true)) :
    ((timingRow c.micro c.dim ++ timingColumn c.micro c.dim).filter
      fun d => decide ((d.1, d.2.1) ∉ drawnCells (patternDraws c))).length =
    2 * (List.range' 8 (timingEnd c.micro c.dim - 8)).countP fun k => !covered k := by
  have hline (line : Nat → Draw) (hcov : ∀ k ∈ List.range' 8 (timingEnd c.micro c.dim - 8),
      (((line k).1, (line k).2.1) ∈ drawnCells (patternDraws c) ↔ covered k = true)) :
      (((List.range' 8 (timingEnd c.micro c.dim - 8)).map line).filter
        fun d => decide ((d.1, d.2.1) ∉ drawnCells (patternDraws c))).length =
      (List.range' 8 (timingEnd c.micro c.dim - 8)).countP fun k => !covered k := by
    rw [← List.countP_eq_length_filter, List.countP_map]
    exact List.countP_congr fun k hk => by simp [hcov k hk]
  have hrange {k : Nat} (hk : k ∈ List.range' 8 (timingEnd c.micro c.dim - 8)) :=
    have hk := List.mem_range'_1.mp hk
    h k hk.1 (by omega)
  rw [List.filter_append, List.length_append, timingRow_eq, timingColumn_eq, hline _ fun k hk => (hrange hk).1,
    hline _ fun k hk => (hrange hk).2, Nat.two_mul]

/-- The cells RESERVE draws in a Normal symbol of a version. -/
def normalReservedCount (ver : Nat) : Nat :=
  25 * (alignmentCentres ver (4 * ver + 17)).length + 223 + (if 7 ≤ ver then 36 else 0) +
    2 * (List.range' 8 (4 * ver + 1)).countP fun k => !alignedAt ver k

theorem reserveDraws_normal_length {c : SymbolConfig} (hv : c.versionOK = true) (hm : c.micro = false) :
    (reserveDraws c).length = normalReservedCount c.ver := by
  obtain ⟨-, -, hdim⟩ := normal_bounds hv hm
  have hend : timingEnd c.micro c.dim = 4 * c.ver + 9 := by
    simp only [timingEnd, hm, Bool.false_eq_true, if_false]
    omega
  have hleft := timing_left_length (c := c) (covered := alignedAt c.ver) fun k h8 hk => by
    simp only [hm, timingIndex, Bool.false_eq_true, if_false]
    exact timing_drawn_iff hv hm h8 (by omega)
  rw [reserveDraws_eq hv, List.length_append, hleft, patternDraws_normal_length hm, hend, hdim, normalReservedCount]
  rfl

theorem reserveDraws_micro_length {c : SymbolConfig} (hv : c.versionOK = true) (hm : c.micro = true) :
    (reserveDraws c).length = 79 + 2 * (2 * c.ver + 1) := by
  obtain ⟨-, -, hdim⟩ := micro_bounds hv hm
  obtain ⟨-, hlen, hplace⟩ := microPatterns_table
  have hend : timingEnd c.micro c.dim = 2 * c.ver + 9 := by simp only [timingEnd, hm, if_true, hdim]
  have hleft := timing_left_length (c := c) (covered := fun _ => false) fun k h8 hk => by
    simp only [hm, timingIndex, if_true, Bool.false_eq_true, iff_false, patternDraws_micro hm, mem_drawnCells]
    refine ⟨?_, ?_⟩ <;> rintro ⟨w, hw⟩ <;> have := hplace _ hw <;> simp at this <;> omega
  rw [reserveDraws_eq hv, List.length_append, hleft, patternDraws_micro hm, hlen, hend]
  simp

/-- The cells of the symbol that are not drawn are as many as the drawn ones leave. -/
theorem free_add_drawn {s : State} (hv : s.config.versionOK = true) :
    ((squareCells s.config.dim).countP fun k => !(completeOk (reserveWrites s)).resAt k.1 k.2) +
      (reserveDraws s.config).length = s.config.dim * s.config.dim := by
  have hdrawn : ((squareCells s.config.dim).filter
      fun k => (completeOk (reserveWrites s)).resAt k.1 k.2).Perm (drawnCells (reserveDraws s.config)) := by
    refine (List.perm_ext_iff_of_nodup ((squareCells_nodup _).filter _) (drawnCells_reserveDraws_nodup hv)).mpr ?_
    rintro ⟨r, k⟩
    rw [List.mem_filter, mem_squareCells, resAt_reserve_iff hv]
    exact and_iff_right_of_imp (reserveDraws_in_symbol hv)
  have hcount := hdrawn.length_eq
  rw [← List.countP_eq_length_filter, drawnCells_length] at hcount
  rw [← hcount, ← squareCells_length, Nat.add_comm,
    List.length_eq_countP_add_countP (fun k => (completeOk (reserveWrites s)).resAt k.1 k.2)]
  simp

/-! ## The table (42_matrix.md R210) -/

/-- rem(v), the free cells of a Normal symbol beyond its codewords. -/
def remainderCells (ver : Nat) : Nat :=
  if ver ∈ [2, 3, 4, 5, 6] then 7
  else if (14 ≤ ver ∧ ver ≤ 20) ∨ (28 ≤ ver ∧ ver ≤ 34) then 3
  else if 21 ≤ ver ∧ ver ≤ 27 then 4 else 0

/-- Drawn cells, codewords and remainder fill the square; the codewords are those of level L. -/
theorem normal_count_table : ∀ ver < 41, 1 ≤ ver →
    8 * ((groups false ver .l).map fun g => g.count * g.total).sum + remainderCells ver + normalReservedCount ver =
      (4 * ver + 17) * (4 * ver + 17) := by
  decide +kernel

/-- A version has as many codewords at every level. -/
theorem normal_total_table : ∀ ver < 41, ∀ level ∈ legalEcc false ver,
    ((groups false ver level).map fun g => g.count * g.total).sum =
      ((groups false ver .l).map fun g => g.count * g.total).sum := by
  decide +kernel

theorem micro_count_table : ∀ ver < 5, 1 ≤ ver → ∀ level ∈ legalEcc true ver,
    let total := ((groups true ver level).map fun g => g.count * g.total).sum
    let free := 8 * total - if ver = 1 ∨ ver = 3 then 4 else 0
    free + (79 + 2 * (2 * ver + 1)) = (2 * ver + 9) * (2 * ver + 9) ∧ [36, 80, 132, 192][ver - 1]? = some free := by
  decide +kernel

/-- The groups of a legal CONFIG are those of a level of its version. -/
theorem exists_level {c : SymbolConfig} (he : c.eccOK = true) :
    ∃ level ∈ legalEcc c.micro c.ver, c.groups = groups c.micro c.ver level := by
  cases hl : c.level with
  | none => simp [SymbolConfig.eccOK, hl] at he
  | some level => exact ⟨level, by simpa [SymbolConfig.eccOK, hl] using he, by simp [SymbolConfig.groups, hl]⟩

theorem nBits_eq (c : SymbolConfig) :
    c.nBits = 8 * c.nTotal - if c.micro = true ∧ (c.ver = 1 ∨ c.ver = 3) then 4 else 0 := by
  simp [SymbolConfig.nBits, SymbolConfig.nibbleShort]

/-- The number of free cells RESERVE leaves. -/
theorem free_count {s : State} (hlegal : s.configLegal) :
    let free := (squareCells s.config.dim).countP fun k => !(completeOk (reserveWrites s)).resAt k.1 k.2
    (s.config.micro = false → free = 8 * s.config.nTotal + remainderCells s.config.ver) ∧
    (s.config.micro = true → free = s.config.nBits ∧ [36, 80, 132, 192][s.config.ver - 1]? = some free) := by
  intro free
  obtain ⟨hv, he⟩ := hlegal
  obtain ⟨level, hlevel, hgroups⟩ := exists_level he
  have hfree : free + (reserveDraws s.config).length = s.config.dim * s.config.dim := free_add_drawn hv
  refine ⟨fun hm => ?_, fun hm => ?_⟩
  · obtain ⟨h1, h40, hdim⟩ := normal_bounds hv hm
    rw [hm] at hlevel hgroups
    have htable := normal_count_table _ h40 h1
    rw [reserveDraws_normal_length hv hm, hdim] at hfree
    rw [SymbolConfig.nTotal, hgroups, normal_total_table _ h40 level hlevel]
    omega
  · obtain ⟨h1, h4, hdim⟩ := micro_bounds hv hm
    rw [hm] at hlevel hgroups
    obtain ⟨hsum, hlist⟩ := micro_count_table _ (by omega) h1 level hlevel
    rw [reserveDraws_micro_length hv hm, hdim, ← hsum, Nat.add_right_cancel_iff] at hfree
    have hbits : free = s.config.nBits := by
      rw [hfree, nBits_eq, SymbolConfig.nTotal, hgroups]
      simp [hm]
    exact ⟨hbits, by rw [hlist, hfree]⟩

/-- Settles O31: the cells of the symbol less the drawn ones, which are counted family by family. -/
theorem freeCellCount : Obligations.FreeCellCount := by
  intro s hlegal
  have ⟨hv, _⟩ := hlegal
  exact ⟨_, exec_reserve_ok hlegal, fun r k _ _ => modAt_reserve_free hv, free_count hlegal⟩

end Sys2Proof.Machine
end

section
/-!
PROOFS. FILL: its bits codeword by codeword, their placement along the traversal, and FILL after RESERVE.
-/

namespace Sys2Proof.Machine

/-! ## The bits FILL places (40_gf_rs.md R142) -/

/-- How many bits codeword i gives. -/
def codewordWidth (c : SymbolConfig) (i : Nat) : Nat := if c.nibbleShort = true ∧ i = c.nData - 1 then 4 else 8

/-- The bits codeword i gives. -/
def codewordBits (s : State) (i : Nat) : List Bool :=
  bits ((s.cwbuf i).toNat >>> (8 - codewordWidth s.config i)) (codewordWidth s.config i)

theorem finalBits_eq (s : State) : finalBits s = (List.range s.config.nTotal).flatMap (codewordBits s) :=
  List.flatMap_congr fun i _ => by simp [codewordBits, codewordWidth]

@[simp] theorem codewordBits_length (s : State) (i : Nat) : (codewordBits s i).length = codewordWidth s.config i := by
  simp [codewordBits]

/-- Bit 7 of a codeword comes first. -/
theorem getElem?_codewordBits (s : State) {i j : Nat} (hj : j < codewordWidth s.config i) :
    (codewordBits s i)[j]? = some ((s.cwbuf i).getLsbD (7 - j)) := by
  have hwidth : codewordWidth s.config i ≤ 8 := by
    rw [codewordWidth]
    split_ifs <;> omega
  rw [codewordBits, bits, List.getElem?_map, List.getElem?_range hj, Option.map_some, Nat.testBit_shiftRight,
    BitVec.testBit_toNat]
  congr 2
  omega

/-- How many bits come before codeword n. -/
theorem length_codewordBits_below (s : State) (hdata : 1 ≤ s.config.nData) (n : Nat) :
    ((List.range n).flatMap (codewordBits s)).length =
      8 * n - if s.config.nibbleShort = true ∧ s.config.nData ≤ n then 4 else 0 := by
  induction n with
  | zero =>
    have : ¬ s.config.nData ≤ 0 := by omega
    simp [this]
  | succ n ih =>
    rw [List.range_succ, List.flatMap_append, List.length_append, ih]
    simp only [List.flatMap_singleton, codewordBits_length, codewordWidth]
    cases s.config.nibbleShort with
    | true => simp only [true_and]; split_ifs <;> omega
    | false => simp; omega

/-- A legal symbol has data codewords, and no more than codewords. -/
theorem nData_bounds {c : SymbolConfig} (h : c.check = none) : 1 ≤ c.nData ∧ c.nData ≤ c.nTotal := by
  obtain ⟨-, hgs⟩ := groups_of_check h
  obtain ⟨hv, he⟩ := (check_eq_none_iff c).mp h
  obtain ⟨level, hlevel, hgroups⟩ := exists_level he
  have hver : 1 ≤ c.ver ∧ c.ver < 41 ∧ (c.micro = true → c.ver ≤ 4) := by
    cases hm : c.micro with
    | true => have := micro_bounds hv hm; omega
    | false => have := normal_bounds hv hm; simp; omega
  obtain ⟨h1, h40, h4⟩ := hver
  obtain ⟨hpos, -⟩ := groups_bounds c.micro c.ver h40 level hlevel h4 h1
  refine ⟨by rwa [SymbolConfig.nData, hgroups], List.sum_le_sum fun g hg => ?_⟩
  exact Nat.mul_le_mul_left _ (hgs g hg).le

theorem finalBits_length {s : State} (h : s.config.check = none) : (finalBits s).length = s.config.nBits := by
  obtain ⟨hpos, hle⟩ := nData_bounds h
  rw [finalBits_eq, length_codewordBits_below s hpos, SymbolConfig.nBits]
  simp [hle]

/-- Where bit j of codeword i stands in the sequence. -/
theorem getElem?_finalBits {s : State} (h : s.config.check = none) {i j : Nat} (hi : i < s.config.nTotal)
    (hj : j < codewordWidth s.config i) :
    (finalBits s)[8 * i - (if s.config.nibbleShort = true ∧ s.config.nData ≤ i then 4 else 0) + j]? =
      some ((s.cwbuf i).getLsbD (7 - j)) := by
  obtain ⟨hpos, -⟩ := nData_bounds h
  rw [finalBits_eq, ← length_codewordBits_below s hpos, getElem?_flatMap_range _ hi (by simpa using hj),
    getElem?_codewordBits s hj]

/-! ## Placing bits (42_matrix.md R213) -/

@[simp] theorem drawnCells_placeBits (cells : List (Nat × Nat)) (seq : List Bool) :
    drawnCells (placeBits cells seq) = cells := by
  induction cells generalizing seq with
  | nil => rfl
  | cons k cells ih => cases seq <;> exact congrArg (k :: ·) (ih _)

/-- The cells take the bits in turn, and then Light. -/
theorem values_placeBits (cells : List (Nat × Nat)) (seq : List Bool) : (placeBits cells seq).map (fun d => d.2.2) =
    seq.take cells.length ++ List.replicate (cells.length - seq.length) false := by
  induction cells generalizing seq with
  | nil => simp [placeBits]
  | cons k cells ih =>
    cases seq with
    | nil => simpa [placeBits, List.replicate_succ] using ih []
    | cons b seq => simpa [placeBits] using ih seq

/-- Where no cell is drawn twice, the drawn cells hold the drawn values. -/
theorem map_cell_draw {ds : List Draw} (hnd : (drawnCells ds).Nodup)
    (hg : ∀ k ∈ drawnCells ds, inGrid k.1 k.2 = true) (p : Plane) (free : Nat → Bool) :
    ((drawnCells ds).map fun k => (p.draw ds).cell free k.1 k.2) = ds.map fun d => d.2.2 := by
  rw [drawnCells, List.map_map]
  exact List.map_congr_left fun d hd => cell_draw_of_nodup hnd (hg _ (List.mem_map_of_mem hd)) hd p free

/-! ## FILL -/

theorem fillCheck_of_check {s : State} {e : CmdError} (h : s.config.check = some e) : fillCheck s = some e := by
  simp [fillCheck, h]

theorem fillCheck_of_legal {s : State} (h : s.configLegal) :
    fillCheck s = if s.stage.e = false ∨ s.stage.r = false then some .sequence else none := by
  simp [fillCheck, (check_eq_none_iff _).mpr h]

theorem exec_fill_ok {s : State} (h : s.configLegal) (he : s.stage.e = true) (hr : s.stage.r = true) :
    exec .fill s = .next (completeOk (fillWrites s)) := by
  rw [exec_fill, fillCheck_of_legal h, he, hr]
  rfl

theorem mem_freeCells {s : State} (hv : s.config.versionOK = true) {r k : Nat} : (r, k) ∈ freeCells s ↔
    (r < s.config.dim ∧ k < s.config.dim ∧ k ≠ if s.config.micro then 0 else 6) ∧ s.resAt r k = false := by
  obtain ⟨hodd, hlow, -⟩ := dim_bounds hv
  rw [freeCells, List.mem_filter, mem_traversal hodd (by omega)]
  simp

theorem freeCells_nodup {s : State} (hv : s.config.versionOK = true) : (freeCells s).Nodup := by
  obtain ⟨hodd, hlow, -⟩ := dim_bounds hv
  exact (traversal_nodup hodd (by omega) _).filter _

/-- The free cells hold the placed values. -/
theorem map_modAt_fill {s : State} (hv : s.config.versionOK = true) :
    ((freeCells s).map fun k => (completeOk (fillWrites s)).modAt k.1 k.2) =
      (finalBits s).take (freeCells s).length ++
        List.replicate ((freeCells s).length - (finalBits s).length) false := by
  have hgrid : ∀ k ∈ freeCells s, inGrid k.1 k.2 = true := fun k hk =>
    have ⟨⟨hr, hk, _⟩, _⟩ := (mem_freeCells hv).mp hk
    inGrid_of_symbol hv hr hk
  have hmap := map_cell_draw (ds := placeBits (freeCells s) (finalBits s)) (by simpa using freeCells_nodup hv)
    (by simpa using hgrid) s.mod (Config.powerOnMod s.epoch)
  rwa [drawnCells_placeBits, values_placeBits] at hmap

/-- Every other cell keeps its module. -/
theorem modAt_fill_of_not_free {s : State} {r k : Nat} (h : (r, k) ∉ freeCells s) :
    (completeOk (fillWrites s)).modAt r k = s.modAt r k :=
  cell_draw_of_not_drawn (by rwa [drawnCells_placeBits]) _ _

/-- Settles O33: the sequence codeword by codeword, and the draws of the free cells, none of them twice. -/
theorem fillPlacesTheBits : Obligations.FillPlacesTheBits := by
  intro s
  refine ⟨configErrorsFirst_of_check (i := .fill) fun e => fillCheck_of_check, fun hlegal hstage => ?_,
    fun hlegal he hr => ?_⟩
  · exact endsInError_of_check (i := .fill) ((fillCheck_of_legal hlegal).trans (if_pos hstage))
  · have ⟨hv, _⟩ := hlegal
    have hcheck := (check_eq_none_iff _).mpr hlegal
    exact ⟨_, exec_fill_ok hlegal he hr, rfl, finalBits_length hcheck,
      fun i hi j hj => getElem?_finalBits hcheck hi hj, map_modAt_fill hv, fun r k => modAt_fill_of_not_free⟩

/-! ## FILL after RESERVE (42_matrix.md R215) -/

/-- A finder at the left edge and its separator fill the first seven columns of eight rows. -/
theorem mem_drawnCells_cornerDraws {r0 r k : Nat} (hlo : r0 - 1 ≤ r) (hhi : r < r0 - 1 + 8) (hk : k < 7) :
    (r, k) ∈ drawnCells (cornerDraws r0 0) := by
  by_cases hline : r = separatorLine r0
  · obtain ⟨hrow, -⟩ := mem_cornerDraws_strips r0 0 (k := k) (by omega)
    rw [← hline, Nat.zero_sub, Nat.zero_add] at hrow
    exact mem_drawnCells_of_mem hrow
  · rw [separatorLine] at hline
    have hin : r0 ≤ r ∧ r < r0 + 7 := by split_ifs at hline <;> omega
    exact mem_drawnCells_of_mem (List.mem_append_left _
      (mem_finderDraws.mpr ⟨r - r0, k, by omega, hk, by omega, by omega, rfl⟩))

/-- RESERVE draws the whole column the traversal skips: a finder, the timing line, and in a Normal symbol another
finder. -/
theorem mem_reserveDraws_skipped {c : SymbolConfig} (hv : c.versionOK = true) {r : Nat} (hr : r < c.dim) :
    (r, timingIndex c.micro) ∈ drawnCells (reserveDraws c) := by
  have hidx := timingIndex_le c.micro
  have hcorner {p : Nat × Nat} (hp : p ∈ finderCorners c)
      (h : (r, timingIndex c.micro) ∈ drawnCells (cornerDraws p.1 p.2)) :
      (r, timingIndex c.micro) ∈ drawnCells (reserveDraws c) := by
    obtain ⟨w, hw⟩ := mem_drawnCells.mp h
    exact mem_drawnCells_of_mem ((mem_reserveDraws hv).mpr (.inl (mem_patternDraws_of_corner hp hw)))
  by_cases h8 : r < 8
  · exact hcorner (p := (0, 0)) (by rw [finderCorners]; split_ifs <;> simp)
      (mem_drawnCells_cornerDraws (by omega) (by omega) (by omega))
  · by_cases hend : r < timingEnd c.micro c.dim
    · exact mem_drawnCells_of_mem (mem_reserveDraws_timing hv (by omega) hend).2
    · have hm : c.micro = false := by
        by_contra hm
        simp only [Bool.not_eq_false] at hm
        exact hend (by rwa [timingEnd, if_pos hm])
      simp only [timingEnd, hm, Bool.false_eq_true, if_false] at hend
      exact hcorner (p := (c.dim - 7, 0)) (by simp [finderCorners, hm])
        (mem_drawnCells_cornerDraws (by omega) (by omega) (by omega))

/-- After RESERVE the traversal meets every free cell of the symbol. -/
theorem mem_freeCells_reserve {s : State} (hv : s.config.versionOK = true) {r k : Nat} (hr : r < s.config.dim)
    (hk : k < s.config.dim) : (r, k) ∈ freeCells (completeOk (reserveWrites s)) ↔
      (completeOk (reserveWrites s)).resAt r k = false := by
  refine (mem_freeCells (s := completeOk (reserveWrites s)) hv).trans
    (and_iff_right_of_imp fun hfree => ⟨hr, hk, ?_⟩)
  rintro rfl
  have hres := (resAt_reserve_iff hv r _).mpr (mem_reserveDraws_skipped hv hr)
  exact Bool.false_ne_true (hfree.symm.trans hres)

theorem freeCells_reserve_length {s : State} (hlegal : s.configLegal) :
    (freeCells (completeOk (reserveWrites s))).length =
      (squareCells s.config.dim).countP fun k => !(completeOk (reserveWrites s)).resAt k.1 k.2 := by
  have ⟨hv, _⟩ := hlegal
  rw [List.countP_eq_length_filter]
  refine ((List.perm_ext_iff_of_nodup (freeCells_nodup (s := completeOk (reserveWrites s)) hv)
    ((squareCells_nodup _).filter _)).mpr ?_).length_eq
  rintro ⟨r, k⟩
  rw [List.mem_filter, mem_squareCells]
  constructor
  · intro h
    obtain ⟨⟨hr, hk, -⟩, hfree⟩ := (mem_freeCells (s := completeOk (reserveWrites s)) hv).mp h
    exact ⟨⟨hr, hk⟩, by simp [hfree]⟩
  · rintro ⟨⟨hr, hk⟩, hfree⟩
    exact (mem_freeCells_reserve hv hr hk).mpr (by simpa using hfree)

/-- The bits fit in the free cells (42_matrix.md R210). -/
theorem nBits_le_freeCells {s : State} (hlegal : s.configLegal) :
    s.config.nBits ≤ (freeCells (completeOk (reserveWrites s))).length := by
  obtain ⟨hnormal, hmicro⟩ := free_count hlegal
  rw [freeCells_reserve_length hlegal]
  cases hm : s.config.micro with
  | true => exact (hmicro hm).1.ge
  | false =>
    rw [hnormal hm, nBits_eq]
    omega

/-- Settles O34: RESERVE leaves at least nBits free cells, all on the traversal, and FILL draws those and no other. -/
theorem fillAfterReservePlacesEveryBit : Obligations.FillAfterReservePlacesEveryBit := by
  intro s hlegal he
  have ⟨hv, _⟩ := hlegal
  have hseq : finalBits (completeOk (reserveWrites s)) = finalBits s := rfl
  have hlen := finalBits_length ((check_eq_none_iff _).mpr hlegal)
  have hfit := nBits_le_freeCells hlegal
  have hmap := map_modAt_fill (s := completeOk (reserveWrites s)) hv
  have hkeep {r k : Nat} := modAt_fill_of_not_free (s := completeOk (reserveWrites s)) (r := r) (k := k)
  have hfree {r k : Nat} := mem_freeCells (s := completeOk (reserveWrites s)) hv (r := r) (k := k)
  refine ⟨_, _, exec_reserve_ok hlegal, exec_fill_ok hlegal he rfl, freeCells_nodup hv,
    fun r k hr hk => (mem_freeCells_reserve hv hr hk).symm, fun r k hres => hkeep fun h => ?_, hfit, ?_,
    fun r k hout => ?_⟩
  · exact Bool.false_ne_true ((hfree.mp h).2.symm.trans hres)
  · refine List.map_take.trans ((congrArg (List.take s.config.nBits) hmap).trans ?_)
    rw [hseq, List.take_of_length_le (l := finalBits s) (by omega)]
    exact List.take_left' hlen
  · rw [hkeep fun h => hout ⟨(hfree.mp h).1.1, (hfree.mp h).1.2.1⟩]
    exact modAt_reserve_free hv (resAt_reserve_outside hv hout)

end Sys2Proof.Machine
end

section
/-!
PROOFS. The mask penalties (43_mask.md R243-R248) as counts over the lines and squares of a matrix, and their bounds.
-/

namespace Sys2Proof.Machine

/-! ## N1: the runs of a line (43_mask.md R243) -/

/-- A line that opens with n equal modules: the run length counter goes through the maximal runs. -/
theorem runLengthsFrom_eq (b : Bool) {n : Nat} (hn : n ≠ 0) (line : List Bool) :
    runLengthsFrom b n line = ((List.replicate n b ++ line).splitBy (· == ·)).map List.length := by
  have hrun {a : Bool} {k : Nat} (hk : k ≠ 0) :
      (List.replicate k a).splitBy (· == ·) = [List.replicate k a] :=
    List.splitBy_of_isChain (by simpa using hk) (List.isChain_replicate_of_rel k (by simp))
  induction line generalizing b n with
  | nil => simp [runLengthsFrom, hrun hn]
  | cons x xs ih =>
    by_cases hx : x = b
    · have hone : List.replicate n b ++ x :: xs = List.replicate (n + 1) b ++ xs := by
        simp [hx, List.replicate_succ']
      rw [runLengthsFrom, if_pos hx, ih b (by omega), hone]
    · have hsplit : (List.replicate n b ++ x :: xs).splitBy (· == ·) =
          (List.replicate n b).splitBy (· == ·) ++ (x :: xs).splitBy (· == ·) :=
        List.splitBy_append_cons xs (by simp [List.getLast?_replicate, hn, Ne.symm hx])
      rw [runLengthsFrom, if_neg hx, ih x one_ne_zero, hsplit, hrun hn]
      simp

theorem runLengths_eq (line : List Bool) : runLengths line = (line.splitBy (· == ·)).map List.length := by
  cases line with
  | nil => rfl
  | cons x xs => exact runLengthsFrom_eq x one_ne_zero xs

/-- Settles O37: the run length counter gives the lengths of the maximal runs. -/
theorem runPenaltyCountsMaximalRuns : Obligations.RunPenaltyCountsMaximalRuns := by
  intro lines
  refine congrArg List.sum (List.map_congr_left fun line _ => ?_)
  rw [lineN1, runLengths_eq, List.map_map]
  rfl

/-- A line scores at most its length less two: every run does, and the runs fill the line. -/
theorem runLengthsFrom_score_le (b : Bool) (n : Nat) (line : List Bool) :
    ((runLengthsFrom b n line).map fun len => if 5 ≤ len then len - 2 else 0).sum ≤ n + line.length - 2 := by
  induction line generalizing b n with
  | nil => simp only [runLengthsFrom, List.map_singleton, List.sum_singleton]; split_ifs <;> omega
  | cons x xs ih =>
    rw [runLengthsFrom, List.length_cons]
    by_cases hx : x = b
    · have := ih b (n + 1)
      rw [if_pos hx]
      omega
    · have := ih x 1
      rw [if_neg hx, List.map_cons, List.sum_cons]
      split_ifs <;> omega

theorem lineN1_le (line : List Bool) : lineN1 line ≤ line.length - 2 := by
  cases line with
  | nil => exact le_rfl
  | cons x xs =>
    rw [List.length_cons, Nat.add_comm]
    exact runLengthsFrom_score_le x 1 xs

/-! ## N2: the squares of a matrix (43_mask.md R244) -/

/-- Modules j and j + 1 of two neighbouring rows are a block of four equal modules. -/
def equalBlockAt (top bottom : List Bool) (j : Nat) : Bool :=
  top.getD j false == top.getD (j + 1) false && top.getD j false == bottom.getD j false &&
    top.getD j false == bottom.getD (j + 1) false

theorem equalBlocks_eq {top bottom : List Bool} (h : bottom.length = top.length) :
    equalBlocks top bottom = (List.range (top.length - 1)).countP (equalBlockAt top bottom) := by
  induction top, bottom using equalBlocks.induct with
  | case1 a b top c d bottom ih =>
    simp only [List.length_cons, Nat.add_right_cancel_iff, Nat.add_sub_cancel] at h ih ⊢
    have hhead : equalBlockAt (a :: b :: top) (c :: d :: bottom) 0 = decide (a = b ∧ a = c ∧ a = d) := by
      simp [equalBlockAt, Bool.decide_and, Bool.and_assoc]
      rfl
    rw [equalBlocks, ih h, List.range_succ_eq_map, List.countP_cons, List.countP_map, hhead, Nat.add_comm]
    simp only [decide_eq_true_eq]
    rfl
  | case2 top bottom hshort =>
    match top, bottom, h with
    | [], [], _ => rfl
    | [_], [_], _ => rfl
    | a :: b :: top, c :: d :: bottom, _ => exact (hshort a b top c d bottom rfl rfl).elim

theorem countBlocks_eq (rows : List (List Bool)) : countBlocks rows =
    ((List.range (rows.length - 1)).map fun i => equalBlocks (rows.getD i []) (rows.getD (i + 1) [])).sum := by
  induction rows using countBlocks.induct with
  | case1 r1 r2 rows ih =>
    rw [countBlocks, ih]
    simp only [List.length_cons, Nat.add_sub_cancel]
    rw [List.range_succ_eq_map, List.map_cons, List.sum_cons, List.map_map]
    rfl
  | case2 rows hshort =>
    match rows with
    | [] => rfl
    | [_] => rfl
    | r1 :: r2 :: rows => exact (hshort r1 r2 rows rfl).elim

theorem countP_squareCells (p : Nat × Nat → Bool) (n : Nat) : (squareCells n).countP p =
    ((List.range n).map fun i => (List.range n).countP fun j => p (i, j)).sum := by
  simp only [squareCells, List.countP_flatMap, List.countP_map, Function.comp_def]

theorem length_getD_of_square {dim : Nat} {rows : List (List Bool)} (hrows : rows.length = dim)
    (hrow : ∀ row ∈ rows, row.length = dim) {i : Nat} (hi : i < dim) : (rows.getD i []).length = dim := by
  rw [List.getD_eq_getElem _ _ (hrows ▸ hi)]
  exact hrow _ (List.getElem_mem _)

/-- Settles O38: row pair by row pair, and block by block in each pair. -/
theorem blockPenaltyCountsEqualSquares : Obligations.BlockPenaltyCountsEqualSquares := by
  intro dim rows hrows hrow m
  have hlen {i : Nat} (hi : i < dim) := length_getD_of_square hrows hrow hi
  rw [penaltyN2, countBlocks_eq, countP_squareCells, hrows]
  refine congrArg (3 * List.sum ·) (List.map_congr_left fun i hi => ?_)
  have hi : i < dim - 1 := List.mem_range.mp hi
  have htop := hlen (i := i) (by omega)
  rw [equalBlocks_eq ((hlen (by omega)).trans htop.symm), htop]
  rfl

theorem penaltyN2_le {dim : Nat} {rows : List (List Bool)} (hrows : rows.length = dim)
    (hrow : ∀ row ∈ rows, row.length = dim) : penaltyN2 rows ≤ 3 * (dim - 1) ^ 2 := by
  rw [blockPenaltyCountsEqualSquares dim rows hrows hrow, Nat.pow_two, ← squareCells_length]
  exact Nat.mul_le_mul_left 3 List.countP_le_length

/-! ## N3: the windows of a line (43_mask.md R245) -/

/-- Whether `pattern` stands at the head of the line, as a number. -/
def patternAtHead (pattern line : List Bool) : Nat := if pattern.isPrefixOf line then 1 else 0

theorem lineFinderLike_cons (x : Bool) (xs : List Bool) : lineFinderLike (x :: xs) =
    patternAtHead finderLikeA (x :: xs) + patternAtHead finderLikeB (x :: xs) + lineFinderLike xs := rfl

theorem patternAtHead_eq (pattern line : List Bool) :
    patternAtHead pattern line = if line.take pattern.length = pattern then 1 else 0 := by
  have hprefix : pattern.isPrefixOf line = true ↔ line.take pattern.length = pattern :=
    List.isPrefixOf_iff_prefix.trans (List.prefix_iff_eq_take.trans eq_comm)
  simp only [patternAtHead, hprefix]

theorem patternAtHead_eq_zero {pattern line : List Bool} (h : line.length < pattern.length) :
    patternAtHead pattern line = 0 := by
  rw [patternAtHead_eq, if_neg]
  intro he
  have := congrArg List.length he
  rw [List.length_take] at this
  omega

/-- A window is not both sequences. -/
theorem patternAtHead_add_le (line : List Bool) :
    patternAtHead finderLikeA line + patternAtHead finderLikeB line ≤ 1 := by
  have hne : finderLikeA ≠ finderLikeB := by decide
  have hlen : finderLikeB.length = finderLikeA.length := rfl
  simp only [patternAtHead_eq, hlen]
  split_ifs with ha hb
  · exact absurd (ha.symm.trans hb) hne
  all_goals omega

/-- The matches of a line, window by window. -/
theorem lineFinderLike_eq (line : List Bool) : lineFinderLike line = ((List.range (line.length + 1 - 11)).map
    fun s => patternAtHead finderLikeA (line.drop s) + patternAtHead finderLikeB (line.drop s)).sum := by
  induction line with
  | nil => rfl
  | cons x xs ih =>
    rw [lineFinderLike_cons, ih, List.length_cons]
    by_cases hlong : 11 ≤ xs.length + 1
    · have hsucc : xs.length + 1 + 1 - 11 = (xs.length + 1 - 11) + 1 := by omega
      rw [hsucc, List.range_succ_eq_map, List.map_cons, List.sum_cons, List.map_map]
      rfl
    · have hnone : xs.length + 1 + 1 - 11 = 0 := by omega
      have hnone' : xs.length + 1 - 11 = 0 := by omega
      have hshort : (x :: xs).length < finderLikeA.length := not_le.mp hlong
      rw [patternAtHead_eq_zero hshort, patternAtHead_eq_zero (pattern := finderLikeB) hshort, hnone, hnone']
      rfl

/-- Settles O39: a match at the head of what is left of the line is a match of the window there. -/
theorem finderPenaltyCountsWindows : Obligations.FinderPenaltyCountsWindows := by
  intro lines a
  refine congrArg (40 * List.sum ·) (List.map_congr_left fun line _ => ?_)
  simp only [lineFinderLike_eq, patternAtHead_eq]
  rfl

theorem sum_map_le {α : Type} {l : List α} {f : α → Nat} {b : Nat} (h : ∀ x ∈ l, f x ≤ b) :
    (l.map f).sum ≤ l.length * b := by
  simpa using List.sum_le_card_nsmul (l.map f) b (by simpa using h)

theorem lineFinderLike_le (line : List Bool) : lineFinderLike line ≤ line.length - 10 := by
  rw [lineFinderLike_eq]
  have := sum_map_le (l := List.range (line.length + 1 - 11)) fun s _ => patternAtHead_add_le (line.drop s)
  simpa using this

/-! ## N4: the balance (43_mask.md R246) -/

/-- The two truncated differences of the model are the absolute value. -/
theorem penaltyN4_eq (dim d : Nat) :
    penaltyN4 dim d = 10 * ((20 * (d : Int) - 10 * ((dim * dim : Nat) : Int)).natAbs / (dim * dim)) := by
  rw [penaltyN4]
  congr 2
  omega

/-- Settles O40: x is |20 d − 10 T| / T, whose floor is the quotient of the naturals. -/
theorem balancePenaltyIsExact : Obligations.BalancePenaltyIsExact := by
  intro dim d hdim T percentDark x
  refine ⟨penaltyN4_eq dim d, ?_⟩
  have hT : (0 : ℚ) < T := by exact_mod_cast Nat.mul_pos hdim hdim
  have hx : x = ((20 * (d : Int) - 10 * (T : Int)).natAbs : ℚ) / (T : ℚ) := by
    have hdiff : percentDark - 50 = 5 * ((20 * d - 10 * T) / T) := by
      simp only [percentDark]
      field_simp
      ring
    simp only [x]
    rw [hdiff, abs_mul, abs_div, abs_of_pos hT, Nat.cast_natAbs]
    push_cast
    rw [abs_of_pos (by norm_num : (0 : ℚ) < 5)]
    ring
  rw [min_eq_right (Int.floor_le_ceil x), hx, Rat.floor_natCast_div_natCast, penaltyN4_eq]
  norm_cast

theorem penaltyN4_le {dim d : Nat} (hd : d ≤ dim * dim) : penaltyN4 dim d ≤ 100 := by
  have : (20 * d - 10 * (dim * dim)) + (10 * (dim * dim) - 20 * d) ≤ 10 * (dim * dim) := by omega
  have := Nat.div_le_of_le_mul (this.trans_eq (Nat.mul_comm _ _))
  rw [penaltyN4]
  omega

end Sys2Proof.Machine
end

section
/-!
PROOFS. What a mask leaves in MOD (43_mask.md R242), the checks MASKAPPLY and MASKSCORE share, and MASKAPPLY (R250).
-/

namespace Sys2Proof.Machine

/-! ## Applying a mask (43_mask.md R242) -/

theorem maskDraws_eq (p : Nat) (s : State) :
    maskDraws p s = ((squareCells s.config.dim).filter fun k => maskHits p s k.1 k.2).map
      fun k => (k.1, k.2, !s.modAt k.1 k.2) := by
  refine congrArg (List.map _) (List.filter_congr ?_)
  rintro ⟨r, c⟩ hk
  simp [maskHits, (mem_squareCells _ _ _).mp hk]

theorem maskHits_iff {p : Nat} {s : State} {r c : Nat} : maskHits p s r c = true ↔
    (r < s.config.dim ∧ c < s.config.dim) ∧ s.resAt r c = false ∧ maskPredicate p r c = true := by
  simp [maskHits, and_assoc]

theorem drawnCells_maskDraws (p : Nat) (s : State) :
    drawnCells (maskDraws p s) = (squareCells s.config.dim).filter fun k => maskHits p s k.1 k.2 := by
  simp [maskDraws_eq, drawnCells, Function.comp_def]

/-- Every cell the pattern hits is toggled, every other cell stays. -/
theorem modAt_applyMask {s : State} (hv : s.config.versionOK = true) (p r c : Nat) :
    (applyMask p s).modAt r c = (s.modAt r c ^^ maskHits p s r c) := by
  cases hhit : maskHits p s r c with
  | true =>
    obtain ⟨⟨hr, hc⟩, -⟩ := maskHits_iff.mp hhit
    have hcell : (r, c) ∈ (squareCells s.config.dim).filter fun k => maskHits p s k.1 k.2 :=
      List.mem_filter.mpr ⟨(mem_squareCells _ _ _).mpr ⟨hr, hc⟩, hhit⟩
    have hnd : (drawnCells (maskDraws p s)).Nodup := by
      rw [drawnCells_maskDraws]
      exact (squareCells_nodup _).filter _
    have hmem : (r, c, !s.modAt r c) ∈ maskDraws p s := by
      rw [maskDraws_eq]
      exact List.mem_map_of_mem hcell
    rw [Bool.xor_true]
    exact cell_draw_of_nodup hnd (inGrid_of_symbol hv hr hc) hmem _ _
  | false =>
    rw [Bool.xor_false]
    refine cell_draw_of_not_drawn ?_ _ _
    rw [drawnCells_maskDraws, List.mem_filter, hhit]
    simp

/-- A mask applied twice leaves the module as it was. -/
theorem modAt_applyMask_twice {s : State} (hv : s.config.versionOK = true) (p r c : Nat) :
    (applyMask p (applyMask p s)).modAt r c = s.modAt r c := by
  have hhits : maskHits p (applyMask p s) r c = maskHits p s r c := rfl
  rw [modAt_applyMask (s := applyMask p s) hv, modAt_applyMask hv, hhits, Bool.xor_assoc, Bool.xor_self, Bool.xor_false]

/-- Storage whose buffers are the same and whose cells read alike reads alike byte by byte. -/
theorem byteAt_congr_of_cells {s t : State} (hmem : t.mem = s.mem) (he : t.epoch = s.epoch)
    (hres : ∀ r c, t.resAt r c = s.resAt r c) (hmod : ∀ r c, t.modAt r c = s.modAt r c) (a : Nat) :
    t.byteAt a = s.byteAt a := by
  by_cases ha : regionOf a = .grid
  · simp only [State.byteAt, ha, State.gridByte, hres, hmod]
  · exact byteAt_congr_of_not_grid hmem he ha

/-! ## The checks of MASKAPPLY and MASKSCORE (43_mask.md R250, R251) -/

theorem maskCheck_of_check {p : Nat} {s : State} {e : CmdError} (h : s.config.check = some e) :
    maskCheck p s = some e := by
  simp [maskCheck, h]

theorem maskCheck_of_legal {s : State} (h : s.configLegal) (p : Nat) :
    maskCheck p s = if s.stage.r = false then some .sequence
      else if s.config.micro = true ∧ p ∉ candidates true then some .badArgument else none := by
  simp [maskCheck, (check_eq_none_iff _).mpr h]

theorem maskCheck_of_accepts {p : Nat} {s : State} (h : maskAccepts p s) : maskCheck p s = none := by
  obtain ⟨hlegal, hr, hp⟩ := h
  have hcand : ¬ (s.config.micro = true ∧ p ∉ candidates true) := fun ⟨hm, hno⟩ => hno (hp hm)
  rw [maskCheck_of_legal hlegal, if_neg (by simp [hr]), if_neg hcand]

/-- The errors MASKAPPLY and MASKSCORE share, in order. -/
theorem maskErrors {i : Instr} {p : Nat} {s : State} (hi : commandCheck i s = maskCheck p s) :
    configErrorsFirst i s (errorOpcode i).toNat ∧
    (s.configLegal → s.stage.r = false → endsInError i s 9 (errorOpcode i).toNat) ∧
    (s.configLegal → s.stage.r = true → s.config.micro = true → p ∉ [1, 4, 6, 7] →
      endsInError i s 8 (errorOpcode i).toNat) := by
  refine ⟨configErrorsFirst_of_check fun e he => hi.trans (maskCheck_of_check he), fun hlegal hr => ?_,
    fun hlegal hr hm hp => ?_⟩
  · exact endsInError_of_check (e := .sequence) (hi.trans ((maskCheck_of_legal hlegal p).trans (if_pos hr)))
  · refine endsInError_of_check (e := .badArgument) (hi.trans ((maskCheck_of_legal hlegal p).trans ?_))
    rw [if_neg (by simp [hr]), if_pos ⟨hm, hp⟩]

/-! ## MASKAPPLY (43_mask.md R240, R250) -/

theorem exec_maskapply_ok {p : BitVec 3} {s : State} (h : maskAccepts p.toNat s) :
    exec (.maskapply p) s = .next (completeOk (applyMask p.toNat s)) := by
  rw [exec_maskapply, maskCheck_of_accepts h]

/-- Settles O35: a hit cell is drawn once with its module inverted, and hit again by the second MASKAPPLY. -/
theorem maskapplyTogglesTheFreeCells : Obligations.MaskapplyTogglesTheFreeCells := by
  intro p s condition
  have hcondition : ∀ i j, maskPredicate p.toNat i j = true ↔ condition i j := by
    intro i j
    have hp := p.isLt
    simp only [condition]
    generalize p.toNat = n at hp ⊢
    interval_cases n <;> simp [maskPredicate]
  obtain ⟨hconfig, hsequence, hargument⟩ := maskErrors (i := .maskapply p) (p := p.toNat) (s := s) rfl
  refine ⟨hcondition, hconfig, hsequence, hargument, fun haccepts => ?_⟩
  have ⟨⟨hv, _⟩, _⟩ := haccepts
  have hmod (r c : Nat) := modAt_applyMask hv p.toNat r c
  refine ⟨_, _, exec_maskapply_ok haccepts, exec_maskapply_ok (s := completeOk (applyMask p.toNat s)) haccepts, rfl,
    fun r c hr hc hfree hcond => ?_, fun r c hnot => ?_, byteAt_congr_of_cells rfl rfl (fun r c => rfl) fun r c => ?_⟩
  · have hhit := maskHits_iff.mpr ⟨⟨hr, hc⟩, hfree, (hcondition r c).mpr hcond⟩
    refine (hmod r c).trans ?_
    rw [hhit, Bool.xor_true]
  · have hmiss : maskHits p.toNat s r c = false := by
      refine Bool.eq_false_iff.mpr fun hhit => hnot ?_
      obtain ⟨⟨hr, hc⟩, hfree, hpred⟩ := maskHits_iff.mp hhit
      exact ⟨hr, hc, hfree, (hcondition r c).mp hpred⟩
    refine (hmod r c).trans ?_
    rw [hmiss, Bool.xor_false]
  · exact modAt_applyMask_twice hv p.toNat r c

end Sys2Proof.Machine
end

section
/-!
PROOFS. The score of a masked symbol (43_mask.md R247-R249), its bounds (R254), and MASKSCORE (R251).
-/

namespace Sys2Proof.Machine

/-! ## The score of a masked symbol (43_mask.md R247-R249) -/

/-- The square matrix of side `dim` with the modules `m i j`, row by row. -/
def squareRows (dim : Nat) (m : Nat → Nat → Bool) : List (List Bool) :=
  (List.range dim).map fun i => (List.range dim).map (m i)

theorem maskedRows_eq (p : Nat) (s : State) :
    maskedRows p s = squareRows s.config.dim fun i j => s.modAt i j ^^ maskHits p s i j := rfl

@[simp] theorem squareRows_length (dim : Nat) (m : Nat → Nat → Bool) : (squareRows dim m).length = dim := by
  simp [squareRows]

theorem length_of_mem_squareRows {dim : Nat} {m : Nat → Nat → Bool} {row : List Bool}
    (h : row ∈ squareRows dim m) : row.length = dim := by
  obtain ⟨i, -, rfl⟩ := List.mem_map.mp h
  simp

theorem columnsOf_squareRows (dim : Nat) (m : Nat → Nat → Bool) :
    columnsOf dim (squareRows dim m) = squareRows dim fun i j => m j i := by
  refine List.map_congr_left fun j hj => ?_
  rw [squareRows, List.map_map]
  refine List.map_congr_left fun i _ => ?_
  simp [List.mem_range.mp hj]

theorem darkCount_squareRows (dim : Nat) (m : Nat → Nat → Bool) :
    darkCount (squareRows dim m) = (squareCells dim).countP fun k => m k.1 k.2 := by
  simp only [darkCount, squareRows, countP_squareCells, List.map_map, Function.comp_def, List.countP_map, id]

theorem microScore_squareRows {dim : Nat} (hdim : 0 < dim) (m : Nat → Nat → Bool) :
    microScore dim (squareRows dim m) =
      16 * min ((List.range dim).countP fun i => m i (dim - 1)) ((List.range dim).countP fun j => m (dim - 1) j) +
        max ((List.range dim).countP fun i => m i (dim - 1)) ((List.range dim).countP fun j => m (dim - 1) j) := by
  have hlast : dim - 1 < dim := Nat.sub_lt hdim one_pos
  have hcolumn : ((squareRows dim m).map fun row => row.getD (dim - 1) false).countP id =
      (List.range dim).countP fun i => m i (dim - 1) := by
    simp [squareRows, Function.comp_def, hlast, List.countP_map]
  have hrow : ((squareRows dim m).getD (dim - 1) []).countP id = (List.range dim).countP fun j => m (dim - 1) j := by
    simp [squareRows, hlast, List.countP_map]
  simp only [microScore, hcolumn, hrow]

/-- The grid with pattern p applied is the masked matrix. -/
theorem score_eq_patternScore {s : State} (hv : s.config.versionOK = true) (p : Nat) :
    score p s = patternScore p s := by
  have hrows : symbolRows (applyMask p s) = maskedRows p s := by
    simp only [symbolRows, maskedRows, modAt_applyMask hv]
    rfl
  rw [score, scoreGrid, hrows]
  rfl

/-! ## The bounds of the scores (43_mask.md R254) -/

/-- The lines of a square matrix: 2 · dim, each of dim modules. -/
theorem lines_squareRows (dim : Nat) (m : Nat → Nat → Bool) :
    let lines := squareRows dim m ++ columnsOf dim (squareRows dim m)
    lines.length = 2 * dim ∧ ∀ line ∈ lines, line.length = dim := by
  rw [columnsOf_squareRows]
  refine ⟨by simp [Nat.two_mul], fun line hline => ?_⟩
  rcases List.mem_append.mp hline with h | h <;> exact length_of_mem_squareRows h

theorem squareRows_bounds (dim : Nat) (m : Nat → Nat → Bool) :
    let rows := squareRows dim m
    let lines := rows ++ columnsOf dim rows
    penaltyN1 lines ≤ 2 * dim * (dim - 2) ∧ penaltyN2 rows ≤ 3 * (dim - 1) ^ 2 ∧
    penaltyN3 lines ≤ 40 * (2 * dim * (dim - 10)) ∧ penaltyN4 dim (darkCount rows) ≤ 100 := by
  intro rows lines
  obtain ⟨hcount, hlen⟩ := lines_squareRows dim m
  refine ⟨?_, penaltyN2_le (squareRows_length dim m) fun row => length_of_mem_squareRows, ?_, penaltyN4_le ?_⟩
  · rw [← hcount]
    exact sum_map_le fun line hline => hlen line hline ▸ lineN1_le line
  · rw [← hcount]
    exact Nat.mul_le_mul_left 40 (sum_map_le fun line hline => hlen line hline ▸ lineFinderLike_le line)
  · rw [darkCount_squareRows, ← squareCells_length]
    exact List.countP_le_length

theorem microScore_squareRows_le {dim : Nat} (hdim : 0 < dim) (m : Nat → Nat → Bool) :
    microScore dim (squareRows dim m) ≤ 17 * dim := by
  have hcount (p : Nat → Bool) : (List.range dim).countP p ≤ dim :=
    List.countP_le_length.trans_eq List.length_range
  have := hcount fun i => m i (dim - 1)
  have := hcount fun j => m (dim - 1) j
  rw [microScore_squareRows hdim]
  omega

/-- Settles O41: the bounds of a square matrix at the side of the symbol, at most 177, for Micro at most 17. -/
theorem scoresStayInBounds : Obligations.ScoresStayInBounds := by
  intro s p ⟨hv, _⟩ rows lines
  obtain ⟨-, hlow, hhigh⟩ := dim_bounds hv
  obtain ⟨hN1, hN2, hN3, hN4⟩ := squareRows_bounds s.config.dim fun i j => s.modAt i j ^^ maskHits p s i j
  have hN1 : penaltyN1 lines ≤ 2 * 177 * 175 := hN1.trans (Nat.mul_le_mul (by omega) (by omega))
  have hN2 : penaltyN2 rows ≤ 3 * 176 ^ 2 :=
    hN2.trans (Nat.mul_le_mul_left 3 (Nat.pow_le_pow_left (by omega) 2))
  have hwindows : 2 * s.config.dim * (s.config.dim - 10) ≤ 2 * 177 * 167 := Nat.mul_le_mul (by omega) (by omega)
  have hN3 : penaltyN3 lines ≤ 40 * 2 * 177 * 167 := hN3.trans (by omega)
  have hmicro (hm : s.config.micro = true) : patternScore p s ≤ 289 := by
    obtain ⟨-, h4, hdim⟩ := micro_bounds hv hm
    rw [patternScore, if_pos hm, maskedRows_eq]
    exact (microScore_squareRows_le (by omega) _).trans (by omega)
  refine ⟨hN1, hN2, hN3, hN4, hmicro, ?_⟩
  cases hm : s.config.micro with
  | true => exact (hmicro hm).trans_lt (by decide)
  | false =>
    have hscore : patternScore p s =
        penaltyN1 lines + penaltyN2 rows + penaltyN3 lines + penaltyN4 s.config.dim (darkCount rows) := by
      rw [patternScore, hm]
      rfl
    have : penaltyN4 s.config.dim (darkCount rows) ≤ 100 := hN4
    omega

/-- A score register holds the score. -/
theorem toNat_patternScore {s : State} (h : s.configLegal) (p : Nat) :
    (BitVec.ofNat 32 (patternScore p s)).toNat = patternScore p s := by
  obtain ⟨-, -, -, -, -, hlt⟩ := scoresStayInBounds s p h
  rw [BitVec.toNat_ofNat, Nat.mod_eq_of_lt hlt]

/-! ## MASKSCORE (43_mask.md R251) -/

theorem exec_maskscore_ok {p : BitVec 3} {s : State} (h : maskAccepts p.toNat s) :
    exec (.maskscore p) s = .next (completeOk (maskscoreWrites p.toNat s)) := by
  rw [exec_maskscore, maskCheck_of_accepts h]

/-- Settles O36: the score of the masked matrix, read off its rows and columns, fits SCORE. -/
theorem maskscoreWritesTheScore : Obligations.MaskscoreWritesTheScore := by
  intro p s
  obtain ⟨hconfig, hsequence, hargument⟩ := maskErrors (i := .maskscore p) (p := p.toNat) (s := s) rfl
  refine ⟨hconfig, hsequence, hargument, fun haccepts => ?_⟩
  have ⟨hlegal, _⟩ := haccepts
  have ⟨hv, _⟩ := hlegal
  obtain ⟨-, hlow, -⟩ := dim_bounds hv
  intro dim dark rows columns rc bc d score'
  have hscore : patternScore p.toNat s = score' := by
    have hrows : maskedRows p.toNat s = rows := rfl
    have hcolumns : columnsOf dim rows = columns := columnsOf_squareRows dim dark
    have hd : darkCount rows = d := darkCount_squareRows dim dark
    have hmicro : microScore dim rows = 16 * min rc bc + max rc bc := microScore_squareRows (by omega) dark
    rw [patternScore, hrows, penalty, hcolumns, hd, hmicro]
  refine ⟨hscore, _, exec_maskscore_ok haccepts, rfl, ?_⟩
  rw [← hscore, ← toNat_patternScore hlegal, ← score_eq_patternScore hv]
  rfl

end Sys2Proof.Machine
end

section
/-!
PROOFS. MASKSEL (43_mask.md R252, R253): the loop ends with the first best candidate, and what it writes is a function
of CONFIG, RES and MOD.
-/

namespace Sys2Proof.Machine

/-! ## The selection loop of MASKSEL (43_mask.md R252) -/

theorem beats_trans {micro : Bool} {a b c : Nat} (hab : beats micro a b = true) (hbc : beats micro b c = true) :
    beats micro a c = true := by
  cases micro <;> simp [beats] at * <;> omega

theorem beats_of_not_beats {micro : Bool} {a b c : Nat} (hab : beats micro a b = true)
    (hcb : beats micro c b = false) : beats micro a c = true := by
  cases micro <;> simp [beats] at * <;> omega

/-- r is the first best of the ids in `ps`, which are scored by `f`: it beats every id before it, and no later one beats
it. -/
def FirstBest (micro : Bool) (f : Nat → Nat) (ps : List Nat) (r : Nat) : Prop :=
  r ∈ ps ∧ ∀ q ∈ ps, (q < r → beats micro (f r) (f q) = true) ∧ (r ≤ q → beats micro (f q) (f r) = false)

/-- The loop over ids in rising order ends with the first best. -/
theorem selectFrom_firstBest (micro : Bool) (f : Nat → Nat) (best : Nat) (ps : List Nat)
    (hsorted : (best :: ps).Pairwise (· < ·)) : ∃ r, FirstBest micro f (best :: ps) r ∧
      selectFrom micro (best, f best) (ps.map fun p => (p, f p)) = (r, f r) := by
  induction ps generalizing best with
  | nil =>
    refine ⟨best, ⟨List.mem_singleton_self _, fun q hq => ?_⟩, rfl⟩
    obtain rfl := List.mem_singleton.mp hq
    exact ⟨fun h => absurd h (lt_irrefl _), fun _ => by cases micro <;> simp [beats]⟩
  | cons p ps ih =>
    obtain ⟨hbest, hps⟩ := List.pairwise_cons.mp hsorted
    obtain ⟨hp, hrest⟩ := List.pairwise_cons.mp hps
    have hbp : best < p := hbest p (by simp)
    rw [List.map_cons, selectFrom]
    cases hbeats : beats micro (f p) (f best) with
    | true =>
      obtain ⟨r, ⟨hmem, hr⟩, hsel⟩ := ih p hps
      have hrp : p ≤ r := by
        rcases List.mem_cons.mp hmem with rfl | h
        · exact le_rfl
        · exact (hp r h).le
      have hrbest : beats micro (f r) (f best) = true := by
        obtain rfl | hlt := hrp.eq_or_lt
        · exact hbeats
        · exact beats_trans ((hr p (by simp)).1 hlt) hbeats
      refine ⟨r, ⟨List.mem_cons_of_mem _ hmem, List.forall_mem_cons.mpr ⟨?_, hr⟩⟩, hsel⟩
      exact ⟨fun _ => hrbest, fun hle => absurd hle (by omega)⟩
    | false =>
      obtain ⟨r, ⟨hmem, hr⟩, hsel⟩ := ih best (List.pairwise_cons.mpr ⟨fun q hq => hbest q (by simp [hq]), hrest⟩)
      obtain ⟨hrbest, hrps⟩ := List.forall_mem_cons.mp hr
      have hrp : (p < r → beats micro (f r) (f p) = true) ∧ (r ≤ p → beats micro (f p) (f r) = false) := by
        refine ⟨fun hlt => beats_of_not_beats (hrbest.1 (by omega)) hbeats, fun hle => ?_⟩
        rcases List.mem_cons.mp hmem with rfl | h
        · exact hbeats
        · exact absurd (hp r h) (by omega)
      have hmem : r ∈ best :: p :: ps := by
        rcases List.mem_cons.mp hmem with h | h <;> simp [h]
      exact ⟨r, ⟨hmem, List.forall_mem_cons.mpr ⟨hrbest, List.forall_mem_cons.mpr ⟨hrp, hrps⟩⟩⟩, hsel⟩

theorem FirstBest.beats_eq_false {micro : Bool} {f : Nat → Nat} {ps : List Nat} {r q : Nat}
    (h : FirstBest micro f ps r) (hq : q ∈ ps) : beats micro (f q) (f r) = false := by
  obtain ⟨-, h⟩ := h
  obtain ⟨hbefore, hafter⟩ := h q hq
  rcases lt_or_ge q r with hlt | hle
  · have := hbefore hlt
    cases micro <;> simp [beats] at * <;> omega
  · exact hafter hle

/-- No candidate scores better. -/
theorem FirstBest.best {micro : Bool} {f : Nat → Nat} {ps : List Nat} {r q : Nat}
    (h : FirstBest micro f ps r) (hq : q ∈ ps) : if micro then f q ≤ f r else f r ≤ f q := by
  have := h.beats_eq_false hq
  cases micro <;> simpa [beats] using this

/-- No candidate enumerated before scores the same. -/
theorem FirstBest.first {micro : Bool} {f : Nat → Nat} {ps : List Nat} {r q : Nat}
    (h : FirstBest micro f ps r) (hq : q ∈ ps) (hlt : q < r) : f q ≠ f r := by
  obtain ⟨-, h⟩ := h
  have := (h q hq).1 hlt
  cases micro <;> simp [beats] at this <;> omega

theorem candidates_ascending (micro : Bool) : (candidates micro).Pairwise (· < ·) := by cases micro <;> decide

theorem scoredCandidates_eq {s : State} (hv : s.config.versionOK = true) :
    scoredCandidates s = (candidates s.config.micro).map fun p => (p, patternScore p s) := by
  simp only [scoredCandidates, score_eq_patternScore hv]

/-- The winner is the first best candidate, with its score. -/
theorem bestCandidate_spec {s : State} (hv : s.config.versionOK = true) : ∃ best,
    FirstBest s.config.micro (fun p => patternScore p s) (candidates s.config.micro) best ∧
      bestCandidate s = (best, patternScore best s) := by
  obtain ⟨p, ps, hcands⟩ : ∃ p ps, candidates s.config.micro = p :: ps := by
    cases s.config.micro <;> exact ⟨_, _, rfl⟩
  have hsorted := candidates_ascending s.config.micro
  rw [hcands] at hsorted
  rw [bestCandidate, scoredCandidates_eq hv, hcands]
  exact selectFrom_firstBest s.config.micro (fun p => patternScore p s) p ps hsorted

/-! ## MASKSEL -/

theorem maskselCheck_of_check {s : State} {e : CmdError} (h : s.config.check = some e) :
    maskselCheck s = some e := by
  simp [maskselCheck, h]

theorem maskselCheck_of_legal {s : State} (h : s.configLegal) : maskselCheck s =
    if s.stage.r = false ∨ s.stage.f = false ∨ s.stage.m = true then some .sequence else none := by
  simp [maskselCheck, (check_eq_none_iff _).mpr h]

theorem exec_masksel_ok {s : State} (h : s.configLegal) (hr : s.stage.r = true) (hf : s.stage.f = true)
    (hm : s.stage.m = false) : exec .masksel s = .next (completeOk (maskselWrites s)) := by
  rw [exec_masksel, maskselCheck_of_legal h, hr, hf, hm]
  rfl

theorem modAt_maskselWrites {s : State} (hv : s.config.versionOK = true) (r c : Nat) :
    (maskselWrites s).modAt r c = (s.modAt r c ^^ maskHits (bestCandidate s).1 s r c) :=
  modAt_applyMask hv _ r c

/-- The alternate id is the place in the enumeration (43_mask.md R241). -/
theorem altId_eq_idxOf : ∀ p ∈ candidates true, altId p = [1, 4, 6, 7].idxOf p := by decide

theorem mscores_get_ofFn (f : Nat → Word) {m : Nat} (hm : m < 8) : (MScores.ofFn f).get m = f m := by
  interval_cases m <;> rfl

/-- Register m of MSCORE takes the score of candidate m, and 0 where m is no candidate. -/
theorem mscore_maskselWrites {s : State} (hlegal : s.configLegal) {m : Nat} (hm : m < 8) :
    ((maskselWrites s).mscore.get m).toNat = if m ∈ candidates s.config.micro then patternScore m s else 0 := by
  have ⟨hv, _⟩ := hlegal
  simp only [maskselWrites, mscores_get_ofFn _ hm, scoredCandidates_eq hv]
  split_ifs with hcand
  · rw [List.lookup_graph _ hcand]
    exact toNat_patternScore hlegal m
  · have hnone : ((candidates s.config.micro).map fun p => (p, patternScore p s)).lookup m = none := by
      refine List.lookup_eq_none_iff.mpr fun q hq => ?_
      obtain ⟨p, hp, rfl⟩ := List.mem_map.mp hq
      exact bne_iff_ne.mpr fun h => hcand (h ▸ hp)
    rw [hnone]
    rfl

/-- Settles O42: the loop's winner is the first best candidate, and every written register follows from it. -/
theorem maskselPicksTheFirstBest : Obligations.MaskselPicksTheFirstBest := by
  intro s
  refine ⟨configErrorsFirst_of_check (i := .masksel) fun e => maskselCheck_of_check, fun hlegal hstage => ?_,
    fun hlegal hr hf hm => ?_⟩
  · exact endsInError_of_check (i := .masksel) ((maskselCheck_of_legal hlegal).trans (if_pos hstage))
  · have ⟨hv, _⟩ := hlegal
    intro cands
    obtain ⟨best, hfirst, hbest⟩ := bestCandidate_spec hv
    have ⟨hmem, _⟩ := hfirst
    have halt : (if s.config.micro then altId best else 0) =
        if s.config.micro then [1, 4, 6, 7].idxOf best else 0 := by
      split_ifs with hmicro
      · exact altId_eq_idxOf best (hmicro ▸ hmem)
      · rfl
    have hmaskid : (maskselWrites s).maskid =
        { pattern := BitVec.ofNat 3 best
          alt := BitVec.ofNat 2 (if s.config.micro then [1, 4, 6, 7].idxOf best else 0) } := by
      simp only [maskselWrites, hbest, halt]
    refine ⟨best, hmem, _, exec_masksel_ok hlegal hr hf hm, fun q => hfirst.best, fun q => hfirst.first, ?_, ?_,
      fun m => mscore_maskselWrites hlegal, fun r c => ?_⟩
    · rw [← hmaskid]
      rfl
    · rw [← toNat_patternScore hlegal]
      simp [maskselWrites, hbest]
    · refine (modAt_maskselWrites hv r c).trans ?_
      rw [hbest]

/-! ## MASKSEL reads CONFIG, RES and MOD only (43_mask.md R253) -/

/-- Which cells are hit depends on CONFIG and RES only. -/
theorem maskHits_congr {s t : State} (hconfig : t.config = s.config) (hres : ∀ r c, t.resAt r c = s.resAt r c)
    (p r c : Nat) : maskHits p t r c = maskHits p s r c := by
  simp only [maskHits, hconfig, hres]

section
variable {s s' : State} (hconfig : s'.config = s.config) (hmod : ∀ r c, s'.modAt r c = s.modAt r c)
  (hres : ∀ r c, s'.resAt r c = s.resAt r c)
include hconfig hmod hres

theorem patternScore_congr (p : Nat) : patternScore p s' = patternScore p s := by
  simp only [patternScore, maskedRows, maskHits_congr hconfig hres, hmod, hconfig]

theorem scoredCandidates_congr (hv : s.config.versionOK = true) : scoredCandidates s' = scoredCandidates s := by
  simp only [scoredCandidates_eq hv, scoredCandidates_eq (hconfig ▸ hv), hconfig,
    patternScore_congr hconfig hmod hres]

theorem bestCandidate_congr (hv : s.config.versionOK = true) : bestCandidate s' = bestCandidate s := by
  simp only [bestCandidate, scoredCandidates_congr hconfig hmod hres hv, hconfig]

end

/-- Settles O43: the masked matrix of every candidate is a function of CONFIG, RES and MOD, so the scores, the winner
and the grid are. -/
theorem maskselDependsOnTheGridOnly : Obligations.MaskselDependsOnTheGridOnly := by
  intro s s' hlegal hconfig hr hf hm hr' hf' hm' hmod hres
  have ⟨hv, _⟩ := hlegal
  have hlegal' : s'.configLegal := by rwa [State.configLegal, hconfig]
  have ⟨hv', _⟩ := hlegal'
  have hscored := scoredCandidates_congr hconfig hmod hres hv
  have hbest := bestCandidate_congr hconfig hmod hres hv
  refine ⟨_, _, exec_masksel_ok hlegal hr hf hm, exec_masksel_ok hlegal' hr' hf' hm', ?_, ?_, ?_, fun r c => ?_⟩
  · simp [maskselWrites, hbest, hconfig]
  · simp [maskselWrites, hbest]
  · simp [maskselWrites, hscored]
  · refine (modAt_maskselWrites hv' r c).trans (Eq.trans ?_ (modAt_maskselWrites hv r c).symm)
    rw [hbest, hmod, maskHits_congr hconfig hres]

end Sys2Proof.Machine
end

section
/-!
PROOFS. FORMAT (44_format_control.md R280-R285): its draws are among the cells RESERVE draws, so none is drawn twice and
all lie in the symbol; the words it draws are those of the BCH construction.
-/

namespace Sys2Proof.Machine

/-! ## The words (44_format_control.md R280, R281, R284) -/

theorem level_mem_legalEcc {c : SymbolConfig} {level : EccLevel} (he : c.eccOK = true) (hl : c.level = some level) :
    level ∈ legalEcc c.micro c.ver := by
  simpa [SymbolConfig.eccOK, hl] using he

/-- The format word of a legal symbol is the one the BCH construction builds. -/
theorem formatWord_eq_constructed {s : State} (h : s.configLegal) {level : EccLevel}
    (hl : s.config.level = some level) : formatWord s =
      if s.config.micro then fmtMConstructed s.config.ver level s.maskid.alt.toNat
      else fmtNConstructed level s.maskid.pattern.toNat := by
  obtain ⟨hv, he⟩ := h
  have hlevel := level_mem_legalEcc he hl
  rw [formatWord, hl]
  cases hm : s.config.micro with
  | true =>
    obtain ⟨h1, h4, -⟩ := micro_bounds hv hm
    have hver : s.config.ver ∈ [1, 2, 3, 4] := by simp; omega
    rw [hm] at hlevel
    exact fmtM_constructed _ s.maskid.alt.isLt _ hver _ hlevel
  | false =>
    rw [hm] at hlevel
    exact fmtN_constructed _ s.maskid.pattern.isLt _ hlevel

/-- The version word of a Normal symbol from version 7 on is the one the BCH construction builds. -/
theorem verInfo_eq_constructed {c : SymbolConfig} (hv : c.versionOK = true) (hm : c.micro = false) (h7 : 7 ≤ c.ver) :
    verInfo c.ver = verInfoConstructed c.ver := by
  obtain ⟨-, h40, -⟩ := normal_bounds hv hm
  have h := verInfo_constructed (c.ver - 7) (by omega)
  rwa [Nat.add_sub_cancel' h7] at h

/-! ## The cells (42_matrix.md R205, R207) -/

theorem formatCellTable_of_legal {c : SymbolConfig} (hv : c.versionOK = true) :
    formatCellTable c.micro c.dim = (List.range 15).map (fmtCells c.micro c.dim) :=
  formatCellTable_eq fun hm => by have := normal_bounds hv hm; omega

theorem versionCellTable_of_legal {c : SymbolConfig} (hv : c.versionOK = true) (hm : c.micro = false) :
    versionCellTable c.dim = (List.range 18).map (verCells c.dim) :=
  versionCellTable_eq (by have := normal_bounds hv hm; omega)

/-- Without version information FORMAT draws the format cells only. -/
theorem versionDraws_eq_nil {micro : Bool} {ver : Nat} (h : ¬ (micro = false ∧ 7 ≤ ver)) (dim word : Nat) :
    versionDraws micro ver dim word = [] :=
  if_neg (by simpa using h)

/-- Which cells are drawn does not depend on the words, so FORMAT's draws are among RESERVE's. -/
theorem drawnCells_metadataDraws_sublist (s : State) :
    (drawnCells (metadataDraws s)).Sublist (drawnCells (patternDraws s.config)) := by
  have hformat : drawnCells (formatDraws s.config.micro s.config.dim (formatWord s)) =
      drawnCells (formatDraws s.config.micro s.config.dim 0) := by simp only [drawnCells_formatDraws]
  rw [metadataDraws, drawnCells_append, hformat]
  cases hm : s.config.micro with
  | true =>
    have hcells : drawnCells (formatDraws true s.config.dim 0) = drawnCells (formatDraws true 0 0) := rfl
    rw [versionDraws_eq_nil (by simp), hcells, patternDraws_micro hm, drawnCells_append]
    simp [drawnCells]
  | false =>
    have hversion : drawnCells (versionDraws false s.config.ver s.config.dim (verInfo s.config.ver)) =
        drawnCells (versionDraws false s.config.ver s.config.dim 0) := by
      by_cases h7 : 7 ≤ s.config.ver
      · simp only [drawnCells_versionDraws h7]
      · simp only [versionDraws_eq_nil (show ¬ (false = false ∧ 7 ≤ s.config.ver) by simpa using h7)]
    rw [hversion]
    simp only [patternDraws, hm, Bool.false_eq_true, if_false, drawnCells_append]
    exact ((List.sublist_append_right _ _).trans (List.sublist_append_left _ _)).append (List.Sublist.refl _)

/-- FORMAT draws the cells the tables list and no other. -/
theorem mem_drawnCells_metadataDraws {s : State} (hv : s.config.versionOK = true) {r c : Nat} :
    (r, c) ∈ drawnCells (metadataDraws s) ↔ (r, c) ∈ (formatCellTable s.config.micro s.config.dim).flatten ∨
      (s.config.micro = false ∧ 7 ≤ s.config.ver) ∧ (r, c) ∈ (versionCellTable s.config.dim).flatten := by
  rw [metadataDraws, drawnCells_append, List.mem_append, drawnCells_formatDraws, formatCellTable_of_legal hv,
    ← List.flatMap_def]
  refine or_congr_right ?_
  by_cases hver : s.config.micro = false ∧ 7 ≤ s.config.ver
  · obtain ⟨hm, h7⟩ := hver
    rw [hm, drawnCells_versionDraws h7, versionCellTable_of_legal hv hm, ← List.flatMap_def]
    simp [h7]
  · simp [versionDraws_eq_nil hver, hver, drawnCells]

/-- Bit b of the format word is drawn in every cell R205 lists for b. -/
theorem mem_metadataDraws_of_format {s : State} (hv : s.config.versionOK = true) {b : Nat} (hb : b < 15)
    {k : Nat × Nat} (hk : k ∈ (formatCellTable s.config.micro s.config.dim).getD b []) :
    (k.1, k.2, (formatWord s).testBit b) ∈ metadataDraws s := by
  rw [formatCellTable_of_legal hv] at hk
  refine List.mem_append_left _ (List.mem_flatMap.mpr ⟨b, List.mem_range.mpr hb, List.mem_map_of_mem ?_⟩)
  simpa [hb] using hk

/-- Bit b of the version word is drawn in both cells R207 lists for b. -/
theorem mem_metadataDraws_of_version {s : State} (hv : s.config.versionOK = true) (hm : s.config.micro = false)
    (h7 : 7 ≤ s.config.ver) {b : Nat} (hb : b < 18) {k : Nat × Nat}
    (hk : k ∈ (versionCellTable s.config.dim).getD b []) :
    (k.1, k.2, (verInfo s.config.ver).testBit b) ∈ metadataDraws s := by
  rw [versionCellTable_of_legal hv hm] at hk
  refine List.mem_append_right _ ?_
  rw [versionDraws, if_pos (by simp [hm, h7])]
  refine List.mem_flatMap.mpr ⟨b, List.mem_range.mpr hb, List.mem_map_of_mem ?_⟩
  simpa [hb] using hk

/-! ## FORMAT -/

theorem formatCheck_of_check {s : State} {e : CmdError} (h : s.config.check = some e) : formatCheck s = some e := by
  simp [formatCheck, h]

theorem formatCheck_of_legal {s : State} (h : s.configLegal) :
    formatCheck s = if s.stage.r = false ∨ s.stage.m = false then some .sequence else none := by
  simp [formatCheck, (check_eq_none_iff _).mpr h]

theorem exec_format_ok {s : State} (h : s.configLegal) (hr : s.stage.r = true) (hm : s.stage.m = true) :
    exec .format s = .next (completeOk (formatWrites s)) := by
  rw [exec_format, formatCheck_of_legal h, hr, hm]
  rfl

/-- A drawn cell holds the drawn module. -/
theorem modAt_format_of_mem {s : State} (hv : s.config.versionOK = true) {r c : Nat} {w : Bool}
    (h : (r, c, w) ∈ metadataDraws s) : (completeOk (formatWrites s)).modAt r c = w := by
  have hsub := drawnCells_metadataDraws_sublist s
  obtain ⟨_, hpattern⟩ := mem_drawnCells.mp (hsub.subset (mem_drawnCells_of_mem h))
  obtain ⟨hr, hc⟩ := patternDraws_in_symbol hv hpattern
  exact cell_draw_of_nodup ((drawnCells_patternDraws_nodup hv).sublist hsub) (inGrid_of_symbol hv hr hc) h _ _

/-- Settles O44: every listed cell is drawn once, with its bit of the constructed word, and no other cell is drawn. -/
theorem formatWritesItsWords : Obligations.FormatWritesItsWords := by
  intro s
  refine ⟨configErrorsFirst_of_check (i := .format) fun e => formatCheck_of_check, fun hlegal hstage => ?_,
    fun hlegal hr hm level hlevel => ?_⟩
  · exact endsInError_of_check (i := .format) ((formatCheck_of_legal hlegal).trans (if_pos hstage))
  · have ⟨hv, _⟩ := hlegal
    intro dim f hasVersion
    refine ⟨_, exec_format_ok hlegal hr hm, rfl, fun b hb k hk => ?_, fun ⟨hmicro, h7⟩ b hb k hk => ?_,
      fun r c hformat hversion => ?_⟩
    · have hf : formatWord s = f := formatWord_eq_constructed hlegal hlevel
      exact hf ▸ modAt_format_of_mem hv (mem_metadataDraws_of_format hv hb hk)
    · rw [← verInfo_eq_constructed hv hmicro h7]
      exact modAt_format_of_mem hv (mem_metadataDraws_of_version hv hmicro h7 hb hk)
    · refine cell_draw_of_not_drawn (ds := metadataDraws s) ?_ _ _
      rw [mem_drawnCells_metadataDraws hv]
      rintro (h | ⟨hhas, h⟩)
      · exact hformat h
      · exact hversion hhas h

end Sys2Proof.Machine
end

section
/-!
PROOFS. The control commands (44_format_control.md R286, R287): NOP, and ENCODE as the six stages it runs.
-/

namespace Sys2Proof.Machine

/-! ## NOP (44_format_control.md R286) -/

/-- Settles O13: a word with OP = 0 that decodes is NOP's, and NOP writes nothing before it completes. -/
theorem nopOnlyCompletes : Obligations.NopOnlyCompletes := by
  refine ⟨rfl, fun w i hop hw hd => ?_, fun s => ⟨exec_nop s, fun hacc => ?_⟩⟩
  · obtain ⟨hcommand, -, -⟩ := decode_eq_ok_iff_checks.mp hd
    rw [show opField w = 0#8 from hop] at hcommand
    obtain rfl : Instr.nop = i := Option.some.inj hcommand
    exact hw (encode_of_decode hd).symm
  · rw [readWord_csr (k := .status) rfl]
    simp [csrRead, State.statusWord, okStatus, State.busy, hacc]

/-! ## ENCODE (44_format_control.md R287)

A stage of ENCODE starts from the writes of the stage before; as a command of its own it starts from their completion.
The completion sets csr.STATUS and empties the latch, which no stage reads or writes. -/

theorem eccgenWrites_completeOk (s : State) : eccgenWrites (completeOk s) = completeOk (eccgenWrites s) := rfl

theorem reserveWrites_completeOk (s : State) : reserveWrites (completeOk s) = completeOk (reserveWrites s) := rfl

theorem fillWrites_completeOk (s : State) : fillWrites (completeOk s) = completeOk (fillWrites s) := rfl

theorem maskselWrites_completeOk (s : State) : maskselWrites (completeOk s) = completeOk (maskselWrites s) := rfl

theorem formatWrites_completeOk (s : State) : formatWrites (completeOk s) = completeOk (formatWrites s) := rfl

theorem completeOk_completeOk (s : State) : completeOk (completeOk s) = completeOk s := rfl

/-- ENCODE where PACK raises an error: PACK's own step. -/
theorem exec_encode_of_pack_error {s t : State} (h : exec .pack s = .next t) (herr : t.status.err = true) :
    exec .encode s = .next t := by
  obtain ⟨e, he, rfl⟩ | ⟨-, rfl⟩ := exec_cases h
  · rw [exec_eq, show commandCheck .encode s = some e from he]
    rfl
  · exact absurd herr (by simp)

/-- ENCODE where PACK accepts: the writes of the six stages and one completion. -/
theorem exec_encode_of_accepts {s : State} (h : packAccepts s) :
    exec .encode s = .next (completeOk (encodeWrites s)) := by
  rw [exec_eq, show commandCheck .encode s = none from packCheck_of_accepts h]
  rfl

/-- The six stages completed one after the other leave what their writes and one completion leave. -/
theorem completeOk_encodeWrites (s : State) : completeOk (encodeWrites s) =
    completeOk (formatWrites (completeOk (maskselWrites (completeOk (fillWrites (completeOk (reserveWrites
      (completeOk (eccgenWrites (completeOk (packWrites s))))))))))) := by
  simp only [encodeWrites, eccgenWrites_completeOk, reserveWrites_completeOk, fillWrites_completeOk,
    maskselWrites_completeOk, formatWrites_completeOk, completeOk_completeOk]

/-- ENCODE leaves every stage done. -/
theorem stage_toWord_encodeWrites (s : State) : (encodeWrites s).stage.toWord = 0x3F#32 := by
  have hstage : (encodeWrites s).stage = { p := true, e := true, r := true, f := true, m := true, t := true } := rfl
  rw [hstage]
  rfl

theorem SameOperands.configLegal {s t : State} (h : SameOperands s t) (hlegal : s.configLegal) :
    (completeOk t).configLegal := by
  simpa [State.configLegal, h.config] using hlegal

/-- Settles O45: each stage sets the STAGE bits the next one checks, and a completion between two stages leaves no
trace. -/
theorem encodeIsItsSixStages : Obligations.EncodeIsItsSixStages := by
  refine fun s => ⟨fun t => exec_encode_of_pack_error, fun haccepts => ?_⟩
  have hencode := exec_encode_of_accepts haccepts
  have hstage : (completeOk (encodeWrites s)).stage.toWord = 0x3F#32 := stage_toWord_encodeWrites s
  rw [completeOk_encodeWrites] at hencode hstage
  have ⟨hlegal, _⟩ := haccepts
  have hlegal1 := (packWrites_sameOperands s).configLegal hlegal
  have hlegal2 := (eccgenWrites_sameOperands _).configLegal hlegal1
  have hlegal3 := (reserveWrites_sameOperands _).configLegal hlegal2
  have hlegal4 := (fillWrites_sameOperands _).configLegal hlegal3
  have hlegal5 := (maskselWrites_sameOperands _).configLegal hlegal4
  refine ⟨_, _, _, _, _, _, exec_pack_of_accepts haccepts, exec_eccgen_ok hlegal1 rfl, exec_reserve_ok hlegal2,
    exec_fill_ok hlegal3 rfl rfl, exec_masksel_ok hlegal4 rfl rfl rfl, exec_format_ok hlegal5 rfl rfl, hencode, ?_,
    hstage⟩
  simp only [List.forall_mem_cons, List.not_mem_nil, false_imp_iff, implies_true, and_true]
  exact ⟨rfl, rfl, rfl, rfl, rfl, rfl⟩

end Sys2Proof.Machine
end

section
/-!
PROOFS. Errors, completion and interrupt (60_exceptions.md): every step answers and takes its turn off the agenda
(70_reset_and_hazards.md R353), and the interrupt output follows DONE (60_exceptions.md R308).
-/

namespace Sys2Proof.Machine

/-! ## No step stops (60_exceptions.md R300; 70_reset_and_hazards.md R353) -/

theorem csrStore_agenda (k : Csr) (w : Word) (s : State) : (csrStore k w s).agenda = s.agenda := by
  cases k <;> rfl

/-- No host access touches the agenda, a soft reset neither (log 1). -/
theorem hostAccess_agenda (acc : Access) (s : State) : (hostAccess acc s).agenda = s.agenda := by
  cases acc with
  | read a => obtain he | ⟨-, -, he⟩ := hostRead_cases a s <;> simp [hostAccess, he]
  | write a w =>
    obtain he | ⟨-, -, he⟩ | ⟨-, he⟩ | ⟨-, -, he⟩ | ⟨-, -, he⟩ | ⟨k, -, -, -, he⟩ | ⟨-, -, he⟩ | ⟨-, -, he⟩ :=
      hostWrite_cases a w s <;> simp [hostAccess, he, csrStore_agenda]

/-- Settles O5: a turn of the core ends as `coreStep_completes` says, at the empty agenda with the latch empty; a host
access and a hardware reset always answer and leave the agenda alone. -/
theorem noStepStopsAndPendingCommandsRun : Obligations.NoStepStopsAndPendingCommandsRun := by
  intro s
  match ha : s.agenda with
  | [] =>
    obtain ⟨t, hcore, hag, hnone, -⟩ := coreStep_completes s
    exact ⟨t, (step_nil ha).trans hcore, hag.trans ha, fun _ => hnone⟩
  | .core :: rest =>
    obtain ⟨t, hcore, hag, hnone, -⟩ := coreStep_completes { s with agenda := rest }
    exact ⟨t, (step_core ha).trans hcore, hag, fun _ => hnone⟩
  | .host acc :: rest => exact ⟨_, step_host ha, hostAccess_agenda acc _, nofun⟩
  | .reset :: rest => exact ⟨_, step_reset ha, hardwareReset_agenda _, nofun⟩

/-! ## The interrupt output (60_exceptions.md R308) -/

theorem irq_of_not_done {s : State} (h : s.status.done = false) : s.irq = false := by simp [State.irq, h]

theorem irq_of_not_enabled {s : State} (h : s.irqEn = false) : s.irq = false := by simp [State.irq, h]

theorem irq_of_done {s : State} (h : s.status.done = true) : s.irq = s.irqEn := by simp [State.irq, h]

/-- With DONE set by every completion, irq is then IRQ_EN. -/
theorem exec_irq {i : Instr} {s t : State} (h : exec i s = .next t) : t.irq = s.irqEn := by
  obtain ⟨u, hu, -, hdone, -, -, -, hirqEn, -⟩ := everyCommandCompletes i s
  obtain rfl : u = t := Host.Outcome.next.inj (hu.symm.trans h)
  exact (irq_of_done hdone).trans hirqEn

theorem softReset_irq (s : State) : (softReset s).irq = false := irq_of_not_done rfl

/-- Settles O12: a completion sets DONE; the acknowledge, the acceptance of a command and both resets clear it; a CTRL
write is a soft reset or sets IRQ_EN. -/
theorem interruptFollowsDone : Obligations.InterruptFollowsDone := by
  obtain ⟨hcmd, -, hstatus, hctrl⟩ := cmdStatusAndCtrlWrites
  simp only [hostAccess] at hcmd hstatus hctrl
  refine ⟨fun s => rfl, fun i s t => exec_irq, fun s w a ha hack => ?acknowledge, fun s w a ha hidle => ?accept,
    fun s w a ha hoff => ?disable, fun s => ⟨softReset_irq s, irq_of_not_done rfl⟩,
    fun s w a ha hsoft hon hdone => ?enable⟩
  case acknowledge => exact irq_of_not_done (by simp [hstatus s a w ha, hack])
  case accept => exact irq_of_not_done (by simp [(hcmd s a w ha).1 hidle])
  case disable =>
    cases hsoft : w.getLsbD 31 with
    | true => simp [hostWrite_csr (k := .ctrl) ha, csrWrite, writeCtrl, hsoft, softReset_irq]
    | false => exact irq_of_not_enabled (by rw [hctrl s a w ha hsoft, hoff])
  case enable => rw [hctrl s a w ha hsoft, State.irq, hon, hdone, Bool.and_self]

end Sys2Proof.Machine
end

section
/-!
PROOFS. What a reset leaves (70_reset_and_hazards.md R340, R341, R344): the registers' reset values, the storage a soft
reset keeps, and the commands that work before the first legal CONFIG.
-/

namespace Sys2Proof.Machine

/-! ## The registers after a reset -/

/-- The storage and the model's own fields are seen in no register. -/
theorem csrRead_reset_storage (k : Csr) (mem : Memory) (mod res : Plane) (epoch : Nat) (agenda : List Turn)
    (readData : Word) :
    csrRead k { State.reset with mem, mod, res, epoch, agenda, readData } = csrRead k State.reset := by
  cases k <;> rfl

theorem csrRead_softReset (k : Csr) (s : State) : csrRead k (softReset s) = csrRead k State.reset :=
  csrRead_reset_storage k _ _ _ _ _ _

theorem csrRead_hardwareReset (k : Csr) (s : State) : csrRead k (hardwareReset s) = csrRead k State.reset :=
  csrRead_reset_storage k _ _ _ _ _ _

/-- The reset values of 10_state.md R21. -/
theorem csrRead_reset (k : Csr) : csrRead k State.reset = if k = .id then 0x51524331#32 else 0#32 := by
  cases k with
  | mscore m => revert m; decide
  | _ => decide

/-- ID is the register at offset 0 and nowhere else. -/
theorem eq_id_iff_of_csrAt {off : Nat} {k : Csr} (h : csrAt off = some k) : k = .id ↔ off = 0 := by
  refine ⟨fun hk => (csrAt_offset h).trans (hk ▸ rfl), fun h0 => ?_⟩
  rw [h0] at h
  exact (Option.some.inj h).symm

/-- A read of a word of the CSR region: the register there, or 0 (10_state.md R21, R45). -/
theorem readWord_csrWord (s : State) {k : Nat} (hk : k < 64) :
    s.readWord (BitVec.ofNat 20 (4 * k)) = ((csrAt (4 * k)).map fun r => csrRead r s).getD 0#32 := by
  have hbase : wordBase (BitVec.ofNat 20 (4 * k)) = 4 * k := wordBase_ofNat (by omega) (by omega)
  have hregion : regionOf (4 * k) = .csr := if_pos (by omega)
  simp only [State.readWord, hbase, hregion]
  cases csrAt (4 * k) <;> rfl

/-- Where every register reads its reset value, so does every word of the CSR region. -/
theorem readWord_of_csrRead_reset {t : State} (h : ∀ r, csrRead r t = csrRead r State.reset) {k : Nat} (hk : k < 64) :
    t.readWord (BitVec.ofNat 20 (4 * k)) = if k = 0 then 0x51524331#32 else 0#32 := by
  rw [readWord_csrWord t hk]
  cases hr : csrAt (4 * k) with
  | none =>
    have hk0 : k ≠ 0 := by rintro rfl; cases hr
    rw [if_neg hk0]
    rfl
  | some r =>
    have hid : r = .id ↔ k = 0 := (eq_id_iff_of_csrAt hr).trans (by omega)
    simp only [Option.map_some, Option.getD_some, h, csrRead_reset, hid]

/-- Settles O55: no register sees what a hardware reset leaves of the state before it. -/
theorem registersReadTheirResetValues : Obligations.RegistersReadTheirResetValues := by
  rintro s t (rfl | rfl)
  · exact ⟨fun k => readWord_of_csrRead_reset fun r => rfl, rfl, rfl, rfl⟩
  · exact ⟨fun k => readWord_of_csrRead_reset fun r => csrRead_hardwareReset r s, rfl, rfl, rfl⟩

/-! ## Soft reset (70_reset_and_hazards.md R344) -/

/-- Settles O54: such a write is a soft reset, whatever BUSY is. -/
theorem softResetKeepsStorage : Obligations.SoftResetKeepsStorage := by
  intro s a w ha hw
  have he : hostAccess (.write a w) s = softReset s := by
    rw [show hostAccess (.write a w) s = writeCtrl w s from hostWrite_csr (k := .ctrl) ha w s, writeCtrl, if_pos hw]
  rw [he]
  exact ⟨rfl, fun k => csrRead_softReset k s, byteAt_congr rfl rfl rfl rfl⟩

/-! ## The commands before the first legal CONFIG (70_reset_and_hazards.md R341) -/

/-- Every command but NOP, GFMUL and RSENC begins with checkConfig (10_state.md R32). -/
theorem commandCheck_of_check {i : Instr} {s : State} {e : CmdError} (hi : i ∉ [Instr.nop, .gfmul, .rsenc])
    (h : s.config.check = some e) : commandCheck i s = some e := by
  cases i with
  | nop | gfmul | rsenc => simp at hi
  | pack | encode => exact packCheck_of_check h
  | eccgen => exact eccgenCheck_of_check h
  | reserve => exact h
  | fill => exact fillCheck_of_check h
  | maskapply p | maskscore p => exact maskCheck_of_check h
  | masksel => exact maskselCheck_of_check h
  | format => exact formatCheck_of_check h

/-- A command whose checks pass completes with the status of a success. -/
theorem exec_okStatus {i : Instr} {s : State} (h : commandCheck i s = none) :
    ∃ t, exec i s = .next t ∧ t.status = okStatus s.status := by
  refine ⟨completeOk (commandWrites i s), by rw [exec_eq, h], ?_⟩
  rw [completeOk_status, (commandWrites_sameOperands i s).status]
  rfl

/-- Settles O11: checkConfig comes first in the commands that call it; of the others only RSENC has a check, on its
arguments. -/
theorem afterResetOnlyConfigFreeCommandsWork : Obligations.AfterResetOnlyConfigFreeCommandsWork := by
  refine ⟨readWord_csr (k := .config) rfl _, rfl, fun i s hi hv => ?_, fun a0 a1 a2 a3 h1 h30 hsrc hdst i hi => ?_⟩
  · have herror := endsInError_of_check (commandCheck_of_check hi ((check_eq_unsupportedVersion_iff _).mpr hv))
    cases i <;> exact herror
  · refine exec_okStatus (s := { State.reset with arg0 := a0, arg1 := a1, arg2 := a2, arg3 := a3 }) ?_
    simp only [List.mem_cons, List.not_mem_nil, or_false] at hi
    obtain rfl | rfl | rfl := hi
    · rfl
    · rfl
    · exact (rsencCheck_eq _).trans (if_neg (by dsimp only; omega))

end Sys2Proof.Machine
end

section
/-!
PROOFS. The read-write registers (10_state.md R21): a write stores the register's fields, which are the bits of the word
under the register's mask.
-/

namespace Sys2Proof.Machine

/-! ## The fields of a word -/

theorem config_toWord_ofWord (w : Word) : (SymbolConfig.ofWord w).toWord = w &&& 0x07073F01#32 := by
  refine BitVec.eq_of_getLsbD_eq fun i hi => ?_
  simp only [SymbolConfig.toWord, SymbolConfig.ofWord, BitVec.getLsbD_append, BitVec.getLsbD_and]
  interval_cases i <;> simp

theorem stage_toWord_ofWord (w : Word) : (Stage.ofWord w).toWord = w &&& 0x0000003F#32 := by
  refine BitVec.eq_of_getLsbD_eq fun i hi => ?_
  simp only [Stage.toWord, Stage.ofWord, BitVec.getLsbD_append, BitVec.getLsbD_and]
  interval_cases i <;> simp

theorem stage_toWord_none : Stage.none.toWord = 0#32 := rfl

theorem maskid_toWord_ofWord (w : Word) : (MaskId.ofWord w).toWord = w &&& 0x00000307#32 := by
  refine BitVec.eq_of_getLsbD_eq fun i hi => ?_
  simp only [MaskId.toWord, MaskId.ofWord, BitVec.getLsbD_append, BitVec.getLsbD_and]
  interval_cases i <;> simp

/-- PLEN is the low half of the word (10_state.md R33). -/
theorem setWidth_lowHalf (w : Word) : (w.extractLsb' 0 16).setWidth 32 = w &&& 0x0000FFFF#32 := by
  refine BitVec.eq_of_getLsbD_eq fun i hi => ?_
  interval_cases i <;> simp

/-! ## The writes -/

/-- While BUSY = 0 a write to the address of a read-write register is `csrStore`. -/
theorem hostAccess_csrStore {s : State} {a : HostAddr} {k : Csr} (hb : s.busy = false) (ha : wordBase a = k.offset)
    (hk : k ∈ [Csr.config, .plen, .stage, .maskid, .arg0, .arg1, .arg2, .arg3]) (w : Word) :
    hostAccess (.write a w) s = csrStore k w s := by
  rw [show hostAccess (.write a w) s = csrWrite k w s from hostWrite_csr ha w s]
  simp only [List.mem_cons, List.not_mem_nil, or_false] at hk
  rcases hk with rfl | rfl | rfl | rfl | rfl | rfl | rfl | rfl <;>
    simp only [csrWrite, hb, Bool.false_eq_true, if_false]

/-- A register write and the word the host then reads at its address. -/
theorem hostAccess_csrStore_reads {s : State} {a : HostAddr} {k : Csr} (hb : s.busy = false)
    (ha : wordBase a = k.offset) (hk : k ∈ [Csr.config, .plen, .stage, .maskid, .arg0, .arg1, .arg2, .arg3])
    (w : Word) : hostAccess (.write a w) s = csrStore k w s ∧
      (hostAccess (.write a w) s).hostReads a = csrRead k (csrStore k w s) := by
  have he := hostAccess_csrStore hb ha hk w
  exact ⟨he, by rw [he, hostReads_csr _ k ha]⟩

/-- Settles O52: each write is `csrStore` of its register, and the word read back is made of the fields stored. -/
theorem registersKeepTheirFields : Obligations.RegistersKeepTheirFields := by
  intro s w hb
  refine ⟨?config, ?plen, ?stage, ?maskid, ?arg0, ?arg1, ?arg2, ?arg3⟩
  case config =>
    rw [hostAccess_csrStore (k := .config) hb rfl (by decide)]
    exact ⟨rfl, (hostReads_csr _ .config rfl).trans (config_toWord_ofWord w),
      (hostReads_csr _ .stage rfl).trans stage_toWord_none⟩
  case plen =>
    rw [hostAccess_csrStore (k := .plen) hb rfl (by decide)]
    exact ⟨rfl, (hostReads_csr _ .plen rfl).trans (setWidth_lowHalf w)⟩
  case stage =>
    rw [hostAccess_csrStore (k := .stage) hb rfl (by decide)]
    exact ⟨rfl, (hostReads_csr _ .stage rfl).trans (stage_toWord_ofWord w)⟩
  case maskid =>
    rw [hostAccess_csrStore (k := .maskid) hb rfl (by decide)]
    exact ⟨rfl, (hostReads_csr _ .maskid rfl).trans (maskid_toWord_ofWord w)⟩
  case arg0 => exact hostAccess_csrStore_reads (k := .arg0) hb rfl (by decide) w
  case arg1 => exact hostAccess_csrStore_reads (k := .arg1) hb rfl (by decide) w
  case arg2 => exact hostAccess_csrStore_reads (k := .arg2) hb rfl (by decide) w
  case arg3 => exact hostAccess_csrStore_reads (k := .arg3) hb rfl (by decide) w

end Sys2Proof.Machine
end

section
/-!
PROOFS. The invariants of 70_reset_and_hazards.md R351: the order of the STAGE bits, and RES while STAGE.R = 1. A step
leaves STAGE, CONFIG and RES alone, clears STAGE, writes the GRID, or completes a command.
-/

namespace Sys2Proof.Machine

/-! ## What a step does to STAGE, CONFIG and RES -/

/-- The fields the reservation invariant speaks of are the same. -/
structure SameReservation (s t : State) : Prop where
  stage : t.stage = s.stage
  config : t.config = s.config
  res : t.res = s.res

theorem hostRead_sameReservation (a : HostAddr) (s : State) : SameReservation s (hostRead a s) := by
  obtain he | ⟨-, -, he⟩ := hostRead_cases a s <;> rw [he] <;> exact ⟨rfl, rfl, rfl⟩

/-- A CONFIG write clears STAGE and a STAGE write sets it; the other register writes leave all three alone
(70_reset_and_hazards.md R349). -/
theorem csrStore_reservation_cases (k : Csr) (w : Word) (s : State) :
    SameReservation s (csrStore k w s) ∨ (csrStore k w s).stage = Stage.none ∨ k = .stage := by
  cases k with
  | config => exact .inr (.inl rfl)
  | stage => exact .inr (.inr rfl)
  | _ => exact .inl ⟨rfl, rfl, rfl⟩

theorem hostWrite_reservation_cases (a : HostAddr) (w : Word) (s : State) :
    SameReservation s (hostWrite a w s) ∨ (hostWrite a w s).stage = Stage.none ∨ wordBase a = 0x18 ∨
    (regionOf (wordBase a) = .grid ∧ (hostWrite a w s).stage = s.stage) := by
  obtain he | ⟨-, -, he⟩ | ⟨-, he⟩ | ⟨-, -, he⟩ | ⟨-, -, he⟩ | ⟨k, -, ha, -, he⟩ | ⟨-, -, he⟩ | ⟨hr, -, he⟩ :=
    hostWrite_cases a w s <;> rw [he]
  · exact .inl ⟨rfl, rfl, rfl⟩
  · exact .inl ⟨rfl, rfl, rfl⟩
  · exact .inl ⟨rfl, rfl, rfl⟩
  · exact .inr (.inl rfl)
  · exact .inl ⟨rfl, rfl, rfl⟩
  · obtain hsame | hnone | rfl := csrStore_reservation_cases k w s
    · exact .inl hsame
    · exact .inr (.inl hnone)
    · exact .inr (.inr (.inl ha))
  · exact .inl ⟨rfl, rfl, rfl⟩
  · exact .inr (.inr (.inr ⟨hr, gridStore_stage _ w s⟩))

/-- Everything a step that is no STAGE write can do to STAGE, CONFIG and RES. -/
theorem step_reservation_cases {s t : State} (hstage : ¬ s.nextWritesStage) (h : step s = .next t) :
    SameReservation s t ∨ t.stage = Stage.none ∨ (s.nextWritesGrid ∧ t.stage = s.stage) ∨
    ∃ i, commandCheck i s.takeTurn = none ∧ t = completeOk (commandWrites i s.takeTurn) := by
  obtain ⟨-, hcore⟩ | ⟨acc, rest, hag, rfl⟩ | ⟨-, rfl⟩ := step_cases h
  · obtain ⟨-, rfl⟩ | ⟨e, op, rfl⟩ | hcommand := coreStep_cases hcore
    · exact .inl ⟨rfl, rfl, rfl⟩
    · exact .inl ⟨rfl, rfl, rfl⟩
    · exact .inr (.inr (.inr hcommand))
  · cases acc with
    | read a =>
      obtain ⟨hst, hcfg, hres⟩ := hostRead_sameReservation a s.takeTurn
      exact .inl ⟨hst, hcfg, hres⟩
    | write a w =>
      obtain ⟨hst, hcfg, hres⟩ | hnone | ha | ⟨hr, hst⟩ := hostWrite_reservation_cases a w s.takeTurn
      · exact .inl ⟨hst, hcfg, hres⟩
      · exact .inr (.inl hnone)
      · exact absurd ⟨a, w, rest, hag, ha⟩ hstage
      · exact .inr (.inr (.inl ⟨⟨a, w, rest, hag, hr⟩, hst⟩))
  · exact .inr (.inl rfl)

/-! ## The order of the STAGE bits, transition by transition (70_reset_and_hazards.md R348) -/

theorem none_ordered : Stage.none.ordered := ⟨nofun, nofun, nofun, nofun⟩

section
variable {st : Stage}

theorem afterPack_ordered (st : Stage) : st.afterPack.ordered := ⟨nofun, nofun, nofun, nofun⟩

theorem afterEccgen_ordered (hp : st.p = true) : st.afterEccgen.ordered := ⟨fun _ => hp, nofun, nofun, nofun⟩

theorem afterReserve_ordered (h : st.ordered) : st.afterReserve.ordered := ⟨h.1, nofun, nofun, nofun⟩

theorem afterFill_ordered (h : st.ordered) (he : st.e = true) (hr : st.r = true) : st.afterFill.ordered :=
  ⟨h.1, fun _ => ⟨he, hr⟩, nofun, nofun⟩

theorem afterMasksel_ordered (h : st.ordered) (hf : st.f = true) : st.afterMasksel.ordered := by
  obtain ⟨hep, hfer, -, -⟩ := h
  exact ⟨hep, hfer, fun _ => hf, nofun⟩

theorem afterFormat_ordered (h : st.ordered) (hm : st.m = true) : st.afterFormat.ordered := by
  obtain ⟨hep, hfer, hmf, -⟩ := h
  exact ⟨hep, hfer, hmf, fun _ => hm⟩

end

/-! ## The STAGE bits a command's checks ask for (70_reset_and_hazards.md R348) -/

/-- A command whose checks pass, but for NOP, GFMUL and RSENC, finds a legal CONFIG. -/
theorem configLegal_of_commandCheck {i : Instr} {s : State} (hi : i ∉ [Instr.nop, .gfmul, .rsenc])
    (h : commandCheck i s = none) : s.configLegal := by
  refine (check_eq_none_iff _).mp ?_
  cases hc : s.config.check with
  | none => rfl
  | some e => simp [commandCheck_of_check hi hc] at h

section
variable {s : State}

theorem stage_of_eccgenCheck (h : eccgenCheck s = none) : s.stage.p = true := by
  have hlegal := configLegal_of_commandCheck (i := .eccgen) (by decide) h
  simpa [eccgenCheck_of_legal hlegal] using h

theorem stage_of_fillCheck (h : fillCheck s = none) : s.stage.e = true ∧ s.stage.r = true := by
  have hlegal := configLegal_of_commandCheck (i := .fill) (by decide) h
  simpa [fillCheck_of_legal hlegal] using h

theorem stage_of_maskselCheck (h : maskselCheck s = none) :
    s.stage.r = true ∧ s.stage.f = true ∧ s.stage.m = false := by
  have hlegal := configLegal_of_commandCheck (i := .masksel) (by decide) h
  simpa [maskselCheck_of_legal hlegal] using h

theorem stage_of_formatCheck (h : formatCheck s = none) : s.stage.r = true ∧ s.stage.m = true := by
  have hlegal := configLegal_of_commandCheck (i := .format) (by decide) h
  simpa [formatCheck_of_legal hlegal] using h

/-! ## The order of the STAGE bits -/

/-- A command whose checks pass keeps the order: the bit a stage sets needs no more than the bits it checks. -/
theorem commandWrites_ordered {i : Instr} (h : s.stage.ordered) (hc : commandCheck i s = none) :
    (commandWrites i s).stage.ordered := by
  cases i with
  | nop | gfmul | rsenc | maskapply | maskscore => exact h
  | pack => exact afterPack_ordered s.stage
  | eccgen => exact afterEccgen_ordered (stage_of_eccgenCheck hc)
  | reserve => exact afterReserve_ordered h
  | fill =>
    obtain ⟨he, hr⟩ := stage_of_fillCheck hc
    exact afterFill_ordered h he hr
  | masksel =>
    obtain ⟨-, hf, -⟩ := stage_of_maskselCheck hc
    exact afterMasksel_ordered h hf
  | format =>
    obtain ⟨-, hm⟩ := stage_of_formatCheck hc
    exact afterFormat_ordered h hm
  | encode => exact ⟨fun _ => rfl, fun _ => ⟨rfl, rfl⟩, fun _ => rfl, fun _ => rfl⟩

/-- Settles O58: the order can only be touched by the transition of a command, whose check asks for what the new bit
implies. -/
theorem stepKeepsTheStageOrder : Obligations.StepKeepsTheStageOrder := by
  intro s t hs hstage hstep
  obtain ⟨hst, -, -⟩ | hnone | ⟨-, hst⟩ | ⟨i, hc, rfl⟩ := step_reservation_cases hstage hstep
  · rwa [hst]
  · rw [hnone]
    exact none_ordered
  · rwa [hst]
  · exact commandWrites_ordered (s := s.takeTurn) hs hc

/-! ## The reservation plane -/

/-- RESERVE, alone or inside ENCODE, draws the plane for CONFIG. -/
theorem commandWrites_reservedRes {i : Instr} (hi : i ∈ [Instr.reserve, .encode]) :
    (commandWrites i s).res = reservedRes s.config := by
  simp only [List.mem_cons, List.not_mem_nil, or_false] at hi
  obtain rfl | rfl := hi <;> rfl

/-- No other command sets or clears R. -/
theorem commandWrites_stage_r {i : Instr} (hi : i ∉ [Instr.reserve, .encode]) :
    (commandWrites i s).stage.r = s.stage.r := by
  cases i with
  | reserve | encode => simp at hi
  | _ => rfl

theorem commandWrites_reservationValid (h : s.reservationValid) (i : Instr) :
    (commandWrites i s).reservationValid := by
  intro hr
  rw [(commandWrites_sameOperands i s).config]
  by_cases hi : i ∈ [Instr.reserve, .encode]
  · exact commandWrites_reservedRes hi
  · rw [commandWrites_res i s hi]
    exact h ((commandWrites_stage_r hi).symm.trans hr)

end

/-- Settles O59: RES is touched by the GRID writes and by RESERVE only, and CONFIG never without clearing R. -/
theorem stepKeepsTheReservation : Obligations.StepKeepsTheReservation := by
  intro s t hs hstage hgrid hstep
  obtain ⟨hst, hcfg, hres⟩ | hnone | ⟨hwrites, -⟩ | ⟨i, -, rfl⟩ := step_reservation_cases hstage hstep
  · intro hr
    rw [hres, hcfg]
    exact hs (hst ▸ hr)
  · intro hr
    rw [hnone] at hr
    cases hr
  · exact absurd hwrites hgrid
  · exact commandWrites_reservationValid (s := s.takeTurn) hs i

/-! ## The state after reset (70_reset_and_hazards.md R340) -/

/-- Settles O57: nothing is recorded, no byte and no cell is written, no stage is done. -/
theorem resetMeetsTheMachineInvariant : Obligations.ResetMeetsTheMachineInvariant :=
  ⟨⟨statusConsistent_of_clear rfl rfl rfl rfl, reset_memory_wf, unwritten_wf, unwritten_wf, Nat.zero_le 2⟩,
    none_ordered⟩

end Sys2Proof.Machine
end
